-- ==== Sys2Proof/Word.lean ====
section
/-! DEFINITION. The engine's words: bytes, 4-bit codes, pixel indices, byte addresses, and the pixel.
Every value is an unsigned number of the stated width, bit 0 least significant (spec/00_scope.md R10). -/

namespace Sys2Proof

/-- A colour channel, a button sample, a phase, a delay count: 8 bits (`CH_W`, `BTN_W`, `PHASE_W`, `DLY_W` of R8). -/
abbrev Byte := BitVec 8

/-- A mode code or a sequencer state code: 4 bits (R90). -/
abbrev Code := BitVec 4

/-- A pixel index register. The spec's width is `IDX_W = max(1, clog2 N)`, at most 16 for a legal `N`
(R8, D36); the register is held in 16 bits, of which only the low `IDX_W` are read (Machine/Widths.lean, assumption 7). -/
abbrev Index := BitVec 16

/-- A frame-buffer byte address. The spec's width is `ADDR_W = max(1, clog2 (3N))`, at most 18 for a legal `N`;
only the low `ADDR_W` bits reach the port (Machine/Widths.lean, assumption 7). -/
abbrev ByteAddr := BitVec 18

/-- A pixel in logical order: three 8-bit channels (R33, R94). -/
structure Pixel where
  r : Byte
  g : Byte
  b : Byte
  deriving DecidableEq, Repr

/-- The dark pixel `(0, 0, 0)`. -/
abbrev Pixel.black : Pixel := ⟨0, 0, 0⟩

end Sys2Proof
end

