-- ==== Sys2Proof/Config.lean ====
section
/-! DEFINITION. What is fixed when the block is built (spec/00_scope.md R8), the input ports (spec/10_state.md R34),
and the free values: inputs nobody has scripted and the contents of memory and registers at power-up. -/

namespace Sys2Proof

/-- The build parameters of R8 that have more than one legal value. They are data, so that every claim about a state
is a claim for every configuration: the spec's `OPEN` parameters are taken as an argument (assumption 1).
`WellFormed.lean` says which values are legal. -/
structure Params where
  /-- `N`, the strip length in pixels. -/
  n : Nat
  /-- `MAXB`, the brightness ceiling of every channel. -/
  maxB : Nat
  /-- `DEBOUNCE_TICKS`. -/
  debounceTicks : Nat
  /-- `BREATHE_DLY`. -/
  breatheDly : Nat
  /-- `CHASE_DLY`. -/
  chaseDly : Nat
  /-- `POLL_EACH_FRAME = 1`: the responsive variant (R211). -/
  pollEachFrame : Bool
  /-- `RELEASE_CLEARS_ACCEPTED = 1` (R126). -/
  releaseClears : Bool
  deriving DecidableEq, Repr

/-- The parameters with R8's defaults. `N` and `MAXB` are OPEN there; 6 and 50 are the values of the source's scenario
(spec/95_test_vectors.md L1.5), a DESIGN CHOICE (assumption 1). -/
def Params.scenario : Params where
  n := 6
  maxB := 50
  debounceTicks := 10
  breatheDly := 10
  chaseDly := 25
  pollEachFrame := false
  releaseClears := false

/-- Counts up from `k` to the first exponent whose power of two reaches `x`. -/
def clog2From (x : Nat) : Nat → Nat → Nat
  | 0, k => k
  | fuel + 1, k => if x ≤ 2 ^ k then k else clog2From x fuel (k + 1)

/-- `clog2 x`: the least `k` with `2^k >= x` (R11). -/
def clog2 (x : Nat) : Nat := clog2From x x 0

/-- `IDX_W`, the width of `head` and `fidx` (R8). -/
def Params.idxW (p : Params) : Nat := max 1 (clog2 p.n)

/-- `ADDR_W`, the width of `fb_rd_addr` (R8). -/
def Params.addrW (p : Params) : Nat := max 1 (clog2 (3 * p.n))

/-- `LEN_W`, the width of `tx_len`: R8 says "at least clog2(3N+1)". DESIGN CHOICE: exactly that (assumption 18). -/
def Params.lenW (p : Params) : Nat := clog2 (3 * p.n + 1)

/-- `MAXB` as a channel value. -/
abbrev Params.maxByte (p : Params) : Byte := BitVec.ofNat 8 p.maxB

/-- `MODE_COUNT = 8` (R8). -/
abbrev modeCount : Nat := 8

/-- `BTN_IDLE = 0xFF`: no button pressed (R8, R95). -/
abbrev btnIdle : Byte := 0xFF

/-- The values of the input ports in one cycle (R34). `clk` is the step itself. -/
structure Inputs where
  /-- synchronous reset, active high (R270) -/
  rst : Bool
  /-- timebase strobe (R247) -/
  tick : Bool
  /-- the button port (R95) -/
  btn : Byte
  /-- the transmitter's completion strobe (R250) -/
  txDone : Bool
  /-- the transmitter's byte address into the frame buffer (R63) -/
  fbRdAddr : ByteAddr
  deriving DecidableEq, Repr, Inhabited

/-- Inputs of a cycle in which nothing happens: no reset, no strobe, no button, and the read port addressed just
outside the frame, where it reads 0x00 (R62). -/
def Inputs.quiet (p : Params) : Inputs where
  rst := false
  tick := false
  btn := btnIdle
  txDone := false
  fbRdAddr := BitVec.ofNat 18 (3 * p.n)

/-- FREE VALUE: the inputs of cycle `c` where no stimulus is written for it. The agents outside the block drive their
ports as they like (R248, R251; I15 to I17), so nothing is known of it (assumption 2). -/
opaque Config.freeInputs : Nat → Inputs

/-- FREE VALUE: what the frame-buffer byte at an address holds before anything has written it: "any value"
(R33, R271; I13; assumption 3). -/
opaque Config.powerUpByte : Nat → Byte

/-- The registers of R20, without the frame buffer. -/
structure PowerUpRegisters where
  seq : Code
  mode : Code
  btnAcc : Byte
  btnCand : Byte
  phase : Byte
  dir : Bool
  sub : BitVec 3
  head : Index
  fidx : Index
  dly : Byte
  mid : Bool
  rdQ : Byte
  deriving DecidableEq, Repr, Inhabited

/-- FREE VALUE: every register before the first reset cycle (R271; I12; assumption 4). -/
opaque Config.powerUpRegisters : PowerUpRegisters

end Sys2Proof
end

