-- ==== Sys2Proof/Syntax.lean ====
section
/-! DEFINITION. The instructions: one constructor per row of spec/opcode_table.json (spec/30_encoding.md R90, R91, R96).
The engine is no processor: a MODE row is a render operation, selected by the register `mode`; a SEQ row is an operation
of the sequencer, selected by the register `seq` (spec/00_scope.md R1). -/

namespace Sys2Proof

/-- The two code formats of R90. Each says which register holds the code. -/
inductive Format where
  | mode
  | seq
  deriving DecidableEq, Repr

/-- The operations of the opcode table. The operand of `off` and of the two `unusedSeq` rows is the row's free bits,
which every rule ignores; they are kept so that no bit of a code is lost. -/
inductive Instr where
  /-- R162 -/
  | breatheRed
  /-- R163 -/
  | breatheYellow
  /-- R164 -/
  | breatheGreen
  /-- R165 -/
  | breatheCyan
  /-- R166 -/
  | breatheBlue
  /-- R167 -/
  | breathePurple
  /-- R168 -/
  | breatheWhite
  /-- R171 -/
  | rainbowChase
  /-- R175: code `1xxx` -/
  | off (x : BitVec 3)
  /-- R201 -/
  | clear
  /-- R121 -/
  | poll
  /-- R122 -/
  | debounce
  /-- R123 -/
  | confirm
  /-- R202 -/
  | passInit
  /-- R203, R204 -/
  | fill
  /-- R206 -/
  | txStart
  /-- R207 -/
  | txWait
  /-- R208 -/
  | delay
  /-- R209 -/
  | step
  /-- R243: code `101x` -/
  | unusedSeqA (x : BitVec 1)
  /-- R243: code `11xx` -/
  | unusedSeqC (x : BitVec 2)
  deriving DecidableEq, Repr

/-- The format an operation's code is written in (R90). -/
def Instr.format : Instr → Format
  | .breatheRed | .breatheYellow | .breatheGreen | .breatheCyan | .breatheBlue | .breathePurple | .breatheWhite
  | .rainbowChase | .off _ => .mode
  | .clear | .poll | .debounce | .confirm | .passInit | .fill | .txStart | .txWait | .delay | .step
  | .unusedSeqA _ | .unusedSeqC _ => .seq

/-- The operation's name in the opcode table. -/
def Instr.mnemonic : Instr → String
  | .breatheRed => "BREATHE_RED"
  | .breatheYellow => "BREATHE_YELLOW"
  | .breatheGreen => "BREATHE_GREEN"
  | .breatheCyan => "BREATHE_CYAN"
  | .breatheBlue => "BREATHE_BLUE"
  | .breathePurple => "BREATHE_PURPLE"
  | .breatheWhite => "BREATHE_WHITE"
  | .rainbowChase => "RAINBOW_CHASE"
  | .off _ => "OFF"
  | .clear => "CLEAR"
  | .poll => "POLL"
  | .debounce => "DEBOUNCE"
  | .confirm => "CONFIRM"
  | .passInit => "PASS_INIT"
  | .fill => "FILL"
  | .txStart => "TX_START"
  | .txWait => "TX_WAIT"
  | .delay => "DELAY"
  | .step => "STEP"
  | .unusedSeqA _ => "UNUSED_SEQ"
  | .unusedSeqC _ => "UNUSED_SEQ"

/-- The states of the sequencer (R96): the ten named ones, and the six unused codes as one. -/
inductive SeqState where
  | clear
  | poll
  | debounce
  | confirm
  | passInit
  | fill
  | txStart
  | txWait
  | delay
  | step
  | unused
  deriving DecidableEq, Repr

end Sys2Proof
end

