-- ==== Sys2Proof/WellFormed.lean ====
section
/-! DEFINITION. The checks. Every `Instr` is well formed, because its operands are exactly the free bits of its row and
"No encoding of any field is illegal" (spec/30_encoding.md R97). What can be ill formed is a configuration outside R8's
legal ranges, which the model refuses, and an input value wider than its port. -/

namespace Sys2Proof

/-- `1 <= N <= 65535` (R8, D26). -/
def Params.stripLegal (p : Params) : Bool := 1 ≤ p.n && p.n ≤ 65535

/-- `1 <= MAXB <= 255` (R8, D26). -/
def Params.ceilingLegal (p : Params) : Bool := 1 ≤ p.maxB && p.maxB ≤ 255

/-- A count of ticks is in `1..255` (R8, D26). -/
def ticksLegal (d : Nat) : Bool := 1 ≤ d && d ≤ 255

/-- A configuration is legal when every parameter is in its range (R8). -/
def Params.legal (p : Params) : Bool :=
  p.stripLegal && p.ceilingLegal && ticksLegal p.debounceTicks && ticksLegal p.breatheDly && ticksLegal p.chaseDly

/-- The address on the read port is an `ADDR_W`-bit value (R34). A wider value cannot be driven: only the low `ADDR_W`
bits of one reach the port (`fitAddr`). -/
def Inputs.wellFormed (p : Params) (i : Inputs) : Bool := i.fbRdAddr.toNat < 2 ^ p.addrW

end Sys2Proof
end

