-- ==== Sys2Proof/Decode.lean ====
section
/-! DEFINITION. The codes of the two formats, decoded and encoded (spec/30_encoding.md R90 to R98), and a code read from
bytes. A code is 4 bits held in a register; where the host lays a code out as bytes, it is the low half of one byte. -/

namespace Sys2Proof

/-! The sequencer state codes of R96. -/

abbrev seqClear : Code := 0x0
abbrev seqPoll : Code := 0x1
abbrev seqDebounce : Code := 0x2
abbrev seqConfirm : Code := 0x3
abbrev seqPassInit : Code := 0x4
abbrev seqFill : Code := 0x5
abbrev seqTxStart : Code := 0x6
abbrev seqTxWait : Code := 0x7
abbrev seqDelay : Code := 0x8
abbrev seqStep : Code := 0x9

/-- The mode code table of R91: every 4-bit value is exactly one row. -/
def decodeMode (m : Code) : Instr :=
  match m.toNat with
  | 0 => .breatheRed
  | 1 => .breatheYellow
  | 2 => .breatheGreen
  | 3 => .breatheCyan
  | 4 => .breatheBlue
  | 5 => .breathePurple
  | 6 => .breatheWhite
  | 7 => .rainbowChase
  | _ => .off (m.extractLsb' 0 3)

/-- The sequencer state code table of R96; 0xA to 0xF are the two rows UNUSED_SEQ (R243). -/
def decodeSeq (s : Code) : Instr :=
  match s.toNat with
  | 0 => .clear
  | 1 => .poll
  | 2 => .debounce
  | 3 => .confirm
  | 4 => .passInit
  | 5 => .fill
  | 6 => .txStart
  | 7 => .txWait
  | 8 => .delay
  | 9 => .step
  | 10 | 11 => .unusedSeqA (s.extractLsb' 0 1)
  | _ => .unusedSeqC (s.extractLsb' 0 2)

/-- The sequencer state a code stands for (R96). -/
def seqStateOf (s : Code) : SeqState :=
  match s.toNat with
  | 0 => .clear
  | 1 => .poll
  | 2 => .debounce
  | 3 => .confirm
  | 4 => .passInit
  | 5 => .fill
  | 6 => .txStart
  | 7 => .txWait
  | 8 => .delay
  | 9 => .step
  | _ => .unused

/-- A code is read from its own bits once its format is known: "no prefix or mode bit changes how a code is read" (R90). -/
def decodeCode (f : Format) (c : Code) : Instr :=
  match f with
  | .mode => decodeMode c
  | .seq => decodeSeq c

/-- The code of an operation, in its own format (R91, R96; the free bits of `1xxx`, `101x` and `11xx` are the operand). -/
def encode : Instr → Code
  | .breatheRed => 0b0000
  | .breatheYellow => 0b0001
  | .breatheGreen => 0b0010
  | .breatheCyan => 0b0011
  | .breatheBlue => 0b0100
  | .breathePurple => 0b0101
  | .breatheWhite => 0b0110
  | .rainbowChase => 0b0111
  | .off x => 0b1#1 ++ x
  | .clear => 0x0
  | .poll => 0x1
  | .debounce => 0x2
  | .confirm => 0x3
  | .passInit => 0x4
  | .fill => 0x5
  | .txStart => 0x6
  | .txWait => 0x7
  | .delay => 0x8
  | .step => 0x9
  | .unusedSeqA x => 0b101#3 ++ x
  | .unusedSeqC x => 0b11#2 ++ x

/-- A row of spec/opcode_table.json: a code of the format belongs to it when `code &&& mask = value`. -/
structure OpcodeRow where
  mnemonic : String
  format : Format
  value : Code
  mask : Code
  deriving DecidableEq, Repr

/-- The MODE rows of spec/opcode_table.json. -/
def modeRows : List OpcodeRow :=
  [⟨"BREATHE_RED", .mode, 0x0, 0xF⟩, ⟨"BREATHE_YELLOW", .mode, 0x1, 0xF⟩, ⟨"BREATHE_GREEN", .mode, 0x2, 0xF⟩,
   ⟨"BREATHE_CYAN", .mode, 0x3, 0xF⟩, ⟨"BREATHE_BLUE", .mode, 0x4, 0xF⟩, ⟨"BREATHE_PURPLE", .mode, 0x5, 0xF⟩,
   ⟨"BREATHE_WHITE", .mode, 0x6, 0xF⟩, ⟨"RAINBOW_CHASE", .mode, 0x7, 0xF⟩, ⟨"OFF", .mode, 0x8, 0x8⟩]

/-- The SEQ rows of spec/opcode_table.json. -/
def seqRows : List OpcodeRow :=
  [⟨"CLEAR", .seq, 0x0, 0xF⟩, ⟨"POLL", .seq, 0x1, 0xF⟩, ⟨"DEBOUNCE", .seq, 0x2, 0xF⟩, ⟨"CONFIRM", .seq, 0x3, 0xF⟩,
   ⟨"PASS_INIT", .seq, 0x4, 0xF⟩, ⟨"FILL", .seq, 0x5, 0xF⟩, ⟨"TX_START", .seq, 0x6, 0xF⟩,
   ⟨"TX_WAIT", .seq, 0x7, 0xF⟩, ⟨"DELAY", .seq, 0x8, 0xF⟩, ⟨"STEP", .seq, 0x9, 0xF⟩,
   ⟨"UNUSED_SEQ", .seq, 0xA, 0xE⟩, ⟨"UNUSED_SEQ", .seq, 0xC, 0xC⟩]

/-- The rows of the opcode table that a code of a format belongs to. -/
def rowsOf (f : Format) (c : Code) : List OpcodeRow :=
  (modeRows ++ seqRows).filter (fun row => row.format = f && c &&& row.mask = row.value)

/-- Why bytes are no code. -/
inductive DecodeError where
  /-- there is no byte to read -/
  | noBytes
  /-- the byte has a bit set above bit 3: a code is exactly 4 bits (R98) -/
  | notACode (b : Byte)
  deriving DecidableEq, Repr

/-- Reads one code of a format from bytes: the low 4 bits of the first byte, whose other bits are 0. -/
def decodeBytes (f : Format) : List Byte → Except DecodeError (Instr × List Byte)
  | [] => .error .noBytes
  | b :: rest => if b.toNat < 16 then .ok (decodeCode f (b.setWidth 4), rest) else .error (.notACode b)

/-- The one byte a code is laid out as. -/
def encodeBytes (i : Instr) : List Byte := [(encode i).setWidth 8]

/-- The `k` bytes of a number, least significant first. -/
def bytesOfNat (w : Nat) : Nat → List Byte
  | 0 => []
  | k + 1 => BitVec.ofNat 8 w :: bytesOfNat (w / 256) k

/-- The instruction the sequencer's fetch reads from a table row's bits. The two formats use the same 4-bit codes and
the bits do not say which is meant: the machine steps through `seq` (R21, R200), so the bits are read as a SEQ code
(assumption 5). -/
def decodeTableWord (nbits w : Nat) : Option Instr :=
  match decodeBytes .seq (bytesOfNat w (max 1 ((nbits + 7) / 8))) with
  | .ok (i, _) => some i
  | .error _ => none

end Sys2Proof
end

