-- ==== Sys2Proof/Machine/Widths.lean ====
section
/-! DEFINITION. The derived widths of spec/00_scope.md R8 at the registers and the port that have them: what a storage word
of fixed size holds once only the bits the build has are kept (assumption 7). -/

namespace Sys2Proof.Machine

/-- The low `IDX_W` bits: what a pixel-index register of this build holds (R8, R26, R29). DESIGN CHOICE: for `N = 1`, where R8
gives `IDX_W = 1` and R26 says that values `N` and above "can be held only if `N` is not a power of two", R8 is followed, and
the one bit can hold 1 (assumption 19). -/
def fitIndex (p : Params) (v : Index) : Index := BitVec.ofNat 16 (v.toNat % 2 ^ p.idxW)

/-- The low `ADDR_W` bits, as a byte address: what the port `fb_rd_addr` of this build carries (R8, R34). -/
def fitAddr (p : Params) (a : ByteAddr) : Nat := a.toNat % 2 ^ p.addrW

end Sys2Proof.Machine
end

