-- ==== Sys2Proof/Machine/State.lean ====
section
/-! DEFINITION. The machine's state: the registers of spec/10_state.md R20, the frame buffer of R33, and, as the model's
own fields, the build parameters, the stimulus still to come and the cycle number. The reasons a step can stop, and reset. -/

namespace Sys2Proof.Machine

/-- The frame buffer in its byte view (R60, R61): (byte address, byte) pairs, addresses strictly rising.
A byte that nothing has written is not listed. -/
abbrev Memory := List Host.Cell

/-- The engine raises no exception: "No operation, input value or register value causes a trap, a halt or a fault
indication" (R240). There is nothing to raise, so there is no constructor. -/
inductive Fault
  deriving DecidableEq, Repr

/-- Why the model has no meaning for a step. -/
inductive Refusal where
  /-- Raised by an arm of `exec` whose instruction has no meaning yet; no arm does. Safe. -/
  | notModelled (mnemonic : String)
  /-- Raised by every instruction and by reset when a build parameter is outside its legal range:
  "A configuration outside the legal range is refused: the model has no meaning for it" (R8, D26, I21). Safe. -/
  | illegalParameters
  deriving DecidableEq, Repr

/-- The state of the engine between two rising edges of `clk`. -/
structure State where
  /-- the build parameters (R8); no register, and nothing changes them (R284) -/
  params : Params
  /-- the sequencer state code, 4 bits (R21) -/
  seq : Code
  /-- the mode code, 4 bits (R22) -/
  mode : Code
  /-- the last accepted button sample, 8 bits (R27) -/
  btnAcc : Byte
  /-- the last observed raw button sample, 8 bits (R28) -/
  btnCand : Byte
  /-- the animation phase cursor, 8 bits (R23) -/
  phase : Byte
  /-- the ramp direction, 1 bit: false is 0, ramp-up; true is 1, ramp-down (R24) -/
  dir : Bool
  /-- the chase sub-phase, 3 bits (R25) -/
  sub : BitVec 3
  /-- the chase head, `IDX_W` bits (R26): read through `State.headReg` -/
  head : Index
  /-- the fill index, `IDX_W` bits (R29): read through `State.fidxReg` -/
  fidx : Index
  /-- the tick counter, 8 bits (R30) -/
  dly : Byte
  /-- 1 when the current poll was taken in the middle of a pass (R31) -/
  mid : Bool
  /-- the output register of the read port, 8 bits (R32) -/
  rdQ : Byte
  /-- the frame buffer (R33) -/
  fb : Memory
  /-- the model's own: the input values of this cycle and of the cycles after it; past its end the inputs are free -/
  stim : List Inputs
  /-- the model's own: the number of this cycle, which a frame event records (R213) -/
  cycle : Nat
  deriving DecidableEq, Repr

/-- The machine right after a reset cycle with the parameters `p` (R270): every register at the value of R20's table,
and a frame buffer that nothing has written. -/
def State.resetOf (p : Params) : State where
  params := p
  seq := seqClear
  mode := 0
  btnAcc := 0xFF
  btnCand := 0xFF
  phase := 0
  dir := false
  sub := 0
  head := 0
  fidx := 0
  dly := 0
  mid := false
  rdQ := 0x00
  fb := []
  stim := []
  cycle := 0

/-- The machine right after reset, built with the source's scenario parameters (assumption 1). -/
def State.reset : State := State.resetOf Params.scenario

/-- The machine at power-up, before its first reset cycle: every register is a free value, and so is every byte of the
frame buffer (R271). `head` and `fidx` have `IDX_W` bits here too (R26, R29). DESIGN CHOICE: their free value is the low
`IDX_W` bits of one 16-bit free value each, so it may be `N` or above, but never wider than the register (assumption 4). -/
def State.powerUp (p : Params) : State where
  params := p
  seq := Config.powerUpRegisters.seq
  mode := Config.powerUpRegisters.mode
  btnAcc := Config.powerUpRegisters.btnAcc
  btnCand := Config.powerUpRegisters.btnCand
  phase := Config.powerUpRegisters.phase
  dir := Config.powerUpRegisters.dir
  sub := Config.powerUpRegisters.sub
  head := fitIndex p Config.powerUpRegisters.head
  fidx := fitIndex p Config.powerUpRegisters.fidx
  dly := Config.powerUpRegisters.dly
  mid := Config.powerUpRegisters.mid
  rdQ := Config.powerUpRegisters.rdQ
  fb := []
  stim := []
  cycle := 0

end Sys2Proof.Machine
end

