-- ==== Sys2Proof/Machine/Operands.lean ====
section
/-! DEFINITION. What the operations compute from their operands: the index registers as they are read,
the decode predicates and the hue mask of a mode code (spec/30_encoding.md R92, R93), the colours, phase steps and delays of spec/42_animation_engine.md, the mode advance
(spec/41_mode_sequencer.md R140), and a pixel's packed form (R94). -/

namespace Sys2Proof.Machine

/-- The chase head: the bits the register has (R26). -/
def State.headReg (s : State) : Index := fitIndex s.params s.head

/-- The fill index: the bits the register has (R29). -/
def State.fidxReg (s : State) : Index := fitIndex s.params s.fidx

/-- Which channels ramp (R93). -/
structure HueMask where
  r : Bool
  g : Bool
  b : Bool
  deriving DecidableEq, Repr

/-- The render operation a mode code selects: a breathe hue, the rainbow chase, or the off fallback (R91). -/
inductive Render where
  | breathe (mask : HueMask)
  | chase
  | off
  deriving DecidableEq, Repr

/-- `is_breathe` (R92). -/
def isBreathe (m : Code) : Bool := m.toNat ≤ 6

/-- `is_chase` (R92). -/
def isChase (m : Code) : Bool := m.toNat = 7

/-- `is_off` (R92). -/
def isOff (m : Code) : Bool := 8 ≤ m.toNat

/-- The hue mask table of R93, by hue index. Indices above 6 name no hue and ramp nothing. -/
def hueMask (h : Code) : HueMask :=
  match h.toNat with
  | 0 => ⟨true, false, false⟩
  | 1 => ⟨true, true, false⟩
  | 2 => ⟨false, true, false⟩
  | 3 => ⟨false, true, true⟩
  | 4 => ⟨false, false, true⟩
  | 5 => ⟨true, false, true⟩
  | 6 => ⟨true, true, true⟩
  | _ => ⟨false, false, false⟩

/-- The render operation of a mode code, by the predicates of R92. -/
def renderOf (m : Code) : Render :=
  if isBreathe m then .breathe (hueMask m)
  else if isChase m then .chase
  else .off

/-- A channel of a breathe frame: the ramp value where the mask bit is 1, else 0 (R161). -/
def rampChannel (ramps : Bool) (v : Byte) : Byte := if ramps then v else 0

/-- The breathing interpolator (R161). -/
def breatheColour (mask : HueMask) (v : Byte) : Pixel :=
  ⟨rampChannel mask.r v, rampChannel mask.g v, rampChannel mask.b v⟩

/-- `MAXB ⊖ k`, the saturating difference (R11). -/
def fallValue (p : Params) (k : Byte) : Byte := BitVec.ofNat 8 (p.maxB - k.toNat)

/-- The chase colour at step `k` of sub-phase `s` (R171). -/
def chaseColour (p : Params) (k : Byte) (s : BitVec 3) : Pixel :=
  match s.toNat with
  | 0 => ⟨p.maxByte, k, 0⟩
  | 1 => ⟨fallValue p k, p.maxByte, 0⟩
  | 2 => ⟨0, p.maxByte, k⟩
  | 3 => ⟨0, fallValue p k, p.maxByte⟩
  | 4 => ⟨k, 0, p.maxByte⟩
  | 5 => ⟨p.maxByte, 0, fallValue p k⟩
  | _ => Pixel.black

/-- The colour of the current frame (R160); the ramp direction is not read. -/
def colour (r : Render) (p : Params) (phase : Byte) (sub : BitVec 3) : Pixel :=
  match r with
  | .breathe mask => breatheColour mask phase
  | .chase => chaseColour p phase sub
  | .off => Pixel.black

/-- A channel held at the brightness ceiling (R176). -/
def clampChannel (p : Params) (v : Byte) : Byte := BitVec.ofNat 8 (min v.toNat p.maxB)

/-- Every pixel value is clamped before it is written (R176). -/
def clamp (p : Params) (x : Pixel) : Pixel := ⟨clampChannel p x.r, clampChannel p x.g, clampChannel p x.b⟩

/-- The pixel a frame writes. -/
def framePixel (r : Render) (p : Params) (phase : Byte) (sub : BitVec 3) : Pixel := clamp p (colour r p phase sub)

/-- The outcome of a breathe phase step: the next `dir` and `phase`, and whether the pass is complete (R169). -/
structure BreatheNext where
  dir : Bool
  phase : Byte
  done : Bool
  deriving DecidableEq, Repr

/-- `breathe_step` (R169). -/
def breatheStep (p : Params) (dir : Bool) (phase : Byte) : BreatheNext :=
  if dir = false then
    if phase.toNat ≥ p.maxB then ⟨true, BitVec.ofNat 8 (p.maxB - 1), false⟩
    else ⟨false, BitVec.ofNat 8 (phase.toNat + 1), false⟩
  else
    if phase.toNat = 0 then ⟨true, 0, true⟩
    else ⟨true, BitVec.ofNat 8 (phase.toNat - 1), false⟩

/-- The outcome of a chase phase step (R172). -/
structure ChaseNext where
  phase : Byte
  sub : BitVec 3
  head : Index
  done : Bool
  deriving DecidableEq, Repr

/-- `head'` of R172: one pixel on, wrapping at the end of the strip. -/
def nextHead (p : Params) (head : Index) : Index :=
  if head.toNat ≥ p.n - 1 then 0 else BitVec.ofNat 16 (head.toNat + 1)

/-- `chase_step` (R172). -/
def chaseStep (p : Params) (phase : Byte) (sub : BitVec 3) (head : Index) : ChaseNext :=
  if phase.toNat ≥ p.maxB - 1 then
    if sub.toNat ≥ 5 then ⟨0, 0, nextHead p head, true⟩
    else ⟨0, BitVec.ofNat 3 (sub.toNat + 1), nextHead p head, false⟩
  else ⟨BitVec.ofNat 8 (phase.toNat + 1), sub, nextHead p head, false⟩

/-- `frame_delay` in ticks; the off mode has none (R178). -/
def frameDelay (r : Render) (p : Params) : Option Byte :=
  match r with
  | .breathe _ => some (BitVec.ofNat 8 p.breatheDly)
  | .chase => some (BitVec.ofNat 8 p.chaseDly)
  | .off => none

/-- `next_mode` (R140). -/
def nextMode (m : Code) : Code :=
  if m.toNat ≤ modeCount - 2 then BitVec.ofNat 4 (m.toNat + 1) else 0

/-- The packed form `0xRRGGBB` of a pixel (R94). -/
def pixelPack (x : Pixel) : BitVec 24 := x.r ++ x.g ++ x.b

/-- The pixel of a packed form (R94). -/
def pixelUnpack (w : BitVec 24) : Pixel := ⟨w.extractLsb' 16 8, w.extractLsb' 8 8, w.extractLsb' 0 8⟩

end Sys2Proof.Machine
end

