-- ==== Sys2Proof/Machine/Flags.lean ====
section
/-! DEFINITION. "The engine has no status flags, condition codes or predicates. No operation sets a flag as a side effect."
(spec/10_state.md R36.) What stands here are the conditions its rules test, as decidable propositions. -/

namespace Sys2Proof.Machine

/-- A first sample is a candidate when it differs from idle and from the accepted sample (R121). -/
abbrev isCandidate (s : State) (b : Byte) : Prop := b ≠ btnIdle ∧ b ≠ s.btnAcc

/-- A re-read sample is an edge when it equals the first sample, and differs from idle and from the accepted sample (R123). -/
abbrev isEdge (s : State) (b : Byte) : Prop := b = s.btnCand ∧ b ≠ btnIdle ∧ b ≠ s.btnAcc

/-- A poll that reads idle resets the accepted sample, when the build says so (R121, R126). -/
abbrev releasesAccepted (s : State) (b : Byte) : Prop := s.params.releaseClears = true ∧ b = btnIdle

/-- A wait ends at a tick when its counter is at most 1 (R122, R208). -/
abbrev waitOver (s : State) : Prop := s.dly.toNat ≤ 1

/-- A fill ends when its index is at or past the last pixel (R201, R203). -/
abbrev fillOver (s : State) : Prop := s.fidxReg.toNat ≥ s.params.n - 1

end Sys2Proof.Machine
end

