-- ==== Sys2Proof/Machine/Memory.lean ====
section
/-! DEFINITION. The frame buffer's cells: reading and writing one byte or one pixel, and the canonical form.
Byte `3i + k` is channel `k` of pixel `i`, in wire order: green, red, blue (spec/20_memory.md R61). -/

namespace Sys2Proof.Machine

/-- The canonical form: addresses strictly rising. -/
def Memory.wf : Memory → Bool
  | [] => true
  | c :: rest => rest.all (fun d => c.1 < d.1) && Memory.wf rest

/-- The byte at an address; an unlisted address holds no written value. -/
def memRead : Memory → Nat → Option Byte
  | [], _ => none
  | c :: rest, a => if c.1 = a then some c.2 else memRead rest a

/-- Writes one byte, keeping the addresses rising. -/
def memWrite : Memory → Nat → Byte → Memory
  | [], a, v => [(a, v)]
  | c :: rest, a, v =>
    if a < c.1 then (a, v) :: c :: rest
    else if a = c.1 then (a, v) :: rest
    else c :: memWrite rest a v

/-- Writes the three bytes of pixel `i` at `3i`, `3i + 1`, `3i + 2`: green, red, blue (R61, R94). -/
def memWritePixel (m : Memory) (i : Nat) (p : Pixel) : Memory :=
  memWrite (memWrite (memWrite m (3 * i) p.g) (3 * i + 1) p.r) (3 * i + 2) p.b

/-- What a cell of the frame buffer holds: the byte written last, or a free value where nothing has been written
(R271, I13; assumption 3). -/
def memByte (m : Memory) (a : Nat) : Byte := (memRead m a).getD (Config.powerUpByte a)

/-- The pixel at index `i`, in logical order. -/
def memPixel (m : Memory) (i : Nat) : Pixel := ⟨memByte m (3 * i + 1), memByte m (3 * i), memByte m (3 * i + 2)⟩

end Sys2Proof.Machine
end

