-- ==== Sys2Proof/Machine/Ops.lean ====
section
/-! DEFINITION. The operations every cycle is made of: the inputs of the cycle, the read port, the pixel write, the mode
advance, the clock edge, reset, and the fetch of the operation from `seq`. The engine takes no exception and returns from
none (spec/60_exceptions.md R240, R245), so there is no exception entry. -/

namespace Sys2Proof.Machine

/-- The input values `k` cycles from now: the stimulus where it reaches so far, else free values (R248). -/
def inputsAt (s : State) (k : Nat) : Inputs := s.stim.getD k (Config.freeInputs (s.cycle + k))

/-- The input values of this cycle. -/
def inputsNow (s : State) : Inputs := inputsAt s 0

/-- The byte address on the read port in this cycle (R34, R63). -/
def readAddr (s : State) : Nat := fitAddr s.params (inputsNow s).fbRdAddr

/-- `FbReadByte(a)`: the byte view; outside the frame it reads 0x00 (R62). -/
def fbReadByte (s : State) (a : Nat) : Byte := if a ≥ 3 * s.params.n then 0x00 else memByte s.fb a

/-- `FbWrite(i, p)`: writes pixel `i`, or nothing when `i >= N` (R205). -/
def fbWrite (s : State) (i : Nat) (p : Pixel) : State :=
  if i < s.params.n then { s with fb := memWritePixel s.fb i p } else s

/-- `ADVANCE`: the next mode, and the chase head restarts (R140). -/
def advanceMode (s : State) : State := { s with mode := nextMode s.mode, head := 0 }

/-- What every cycle does beside its operation: the read port latches the byte addressed, as the frame buffer stood at
the start of the cycle (R63), and time moves on by one cycle. -/
def passCycle (s : State) : State :=
  { s with rdQ := fbReadByte s (readAddr s), stim := s.stim.tail, cycle := s.cycle + 1 }

/-- One cycle that performs an operation: all its writes commit at the same rising edge (R12). The operation sees the
inputs of this cycle, and the registers as they stood at its start (none reads what `passCycle` writes). A configuration
outside R8's ranges is refused. -/
def runCycle (op : Inputs → State → State) (s : State) : Host.Outcome State Fault Refusal :=
  if s.params.legal then .next (op (inputsNow s) (passCycle s)) else .refused .illegalParameters

/-- Every register at its reset value (R270); the frame buffer keeps whatever it holds. -/
def resetRegisters (s : State) : State :=
  { s with
    seq := seqClear, mode := 0, btnAcc := 0xFF, btnCand := 0xFF, phase := 0, dir := false, sub := 0, head := 0,
    fidx := 0, dly := 0, mid := false, rdQ := 0x00 }

/-- A cycle with `rst = 1` (R270). -/
def resetCycle (s : State) : Host.Outcome State Fault Refusal :=
  runCycle (fun _ t => resetRegisters t) s

/-- The operation the sequencer performs in this cycle: "the one named by `seq`" (R200). -/
def fetch (s : State) : Instr := decodeSeq s.seq

/-- `tx_start`: 1 in exactly the cycles where `seq = TX_START`, but for reset cycles (R206, R270). -/
def txStartOut (s : State) : Bool := s.seq = seqTxStart && !(inputsNow s).rst

/-- `tx_len`: the byte length of one frame, on `LEN_W` wires (R8, R35). -/
def txLenOut (s : State) : BitVec s.params.lenW := BitVec.ofNat s.params.lenW (3 * s.params.n)

/-- `fb_rd_data` (R35, R63). -/
def fbRdDataOut (s : State) : Byte := s.rdQ

end Sys2Proof.Machine
end

