-- ==== Sys2Proof/Machine/Sequencer.lean ====
section
/-! DEFINITION. The operations of the sequencer (spec/43_frame_writer_and_pass_control.md, spec/40_button_sampler.md), one
for each state of R96, as the register writes of one cycle. Those that dispatch on the mode (`FILL`, `TX_WAIT`, `STEP`,
R200) take the render operation as an argument. Both formats' instructions are made of them. -/

namespace Sys2Proof.Machine

/-- `CLEAR` (R201). -/
def opClear (_ : Inputs) (s : State) : State :=
  let t := fbWrite s s.fidxReg.toNat Pixel.black
  if fillOver s then { t with fidx := 0, seq := seqPoll }
  else { t with fidx := BitVec.ofNat 16 (s.fidxReg.toNat + 1) }

/-- Where a poll that reports no edge returns to (R31). -/
def pollReturn (s : State) : Code := if s.mid then seqFill else seqPassInit

/-- `POLL` (R121). -/
def opPoll (inp : Inputs) (s : State) : State :=
  if isCandidate s inp.btn then
    { s with btnCand := inp.btn, dly := BitVec.ofNat 8 s.params.debounceTicks, seq := seqDebounce }
  else
    { s with
      btnCand := inp.btn, btnAcc := if releasesAccepted s inp.btn then btnIdle else s.btnAcc,
      seq := pollReturn s, mid := false }

/-- A wait for ticks: `DEBOUNCE` (R122) and `DELAY` (R208), which differ in the state they lead to. -/
def opWait (after : Code) (inp : Inputs) (s : State) : State :=
  if inp.tick then
    if waitOver s then { s with dly := 0, seq := after }
    else { s with dly := BitVec.ofNat 8 (s.dly.toNat - 1) }
  else s

/-- `DEBOUNCE` (R122). -/
def opDebounce (inp : Inputs) (s : State) : State := opWait seqConfirm inp s

/-- `CONFIRM` (R123), with ADVANCE (R140) in its edge branch. -/
def opConfirm (inp : Inputs) (s : State) : State :=
  if isEdge s inp.btn then
    { advanceMode s with btnCand := inp.btn, btnAcc := inp.btn, seq := seqPassInit, mid := false }
  else
    { s with btnCand := inp.btn, seq := pollReturn s, mid := false }

/-- `PASS_INIT` (R202). DESIGN CHOICE: it does not write `dly`, as R202 has it, although R242's summary has `dly` back in its
range by then (assumption 20). -/
def opPassInit (_ : Inputs) (s : State) : State :=
  { s with phase := 0, dir := false, sub := 0, fidx := 0, seq := seqFill }

/-- `FILL` over the whole strip, one pixel a cycle (R203). -/
def fillStrip (x : Pixel) (s : State) : State :=
  let t := fbWrite s s.fidxReg.toNat x
  if fillOver s then { t with fidx := 0, seq := seqTxStart }
  else { t with fidx := BitVec.ofNat 16 (s.fidxReg.toNat + 1) }

/-- `FILL` of the head pixel alone (R204). -/
def fillHead (x : Pixel) (s : State) : State := { fbWrite s s.headReg.toNat x with seq := seqTxStart }

/-- `FILL` (R203 for breathe and off, R204 for chase). -/
def opFill (r : Render) (_ : Inputs) (s : State) : State :=
  match r with
  | .chase => fillHead (framePixel .chase s.params s.phase s.sub) s
  | .breathe mask => fillStrip (framePixel (.breathe mask) s.params s.phase s.sub) s
  | .off => fillStrip (framePixel .off s.params s.phase s.sub) s

/-- `TX_START` (R206); the output is `txStartOut`. -/
def opTxStart (_ : Inputs) (s : State) : State := { s with seq := seqTxWait }

/-- `TX_WAIT` (R207). -/
def opTxWait (r : Render) (inp : Inputs) (s : State) : State :=
  if inp.txDone then
    match frameDelay r s.params with
    | none => { s with seq := seqPoll }
    | some d => { s with dly := d, seq := seqDelay }
  else s

/-- `DELAY` (R208). -/
def opDelay (inp : Inputs) (s : State) : State := opWait seqStep inp s

/-- The end of `STEP`: the pass is complete, or a poll between frames, or the next frame (R209). -/
def endStep (done : Bool) (s : State) : State :=
  if done then { s with mid := false, seq := seqPoll }
  else if s.params.pollEachFrame then { s with mid := true, seq := seqPoll }
  else { s with seq := seqFill }

/-- `STEP` (R209). -/
def opStep (r : Render) (_ : Inputs) (s : State) : State :=
  match r with
  | .breathe _ =>
    let q := breatheStep s.params s.dir s.phase
    endStep q.done { s with dir := q.dir, phase := q.phase }
  | .chase =>
    let q := chaseStep s.params s.phase s.sub s.headReg
    endStep q.done { s with phase := q.phase, sub := q.sub, head := q.head }
  | .off => endStep true s

/-- An unused state code is absorbed into `POLL` (R243). -/
def opUnused (_ : Inputs) (s : State) : State := { s with mid := false, seq := seqPoll }

/-- The cycle of the engine while the mode register selects the render operation `r`: the operation `seq` names, in
which `FILL`, `TX_WAIT` and `STEP` take their colour, pixels, delay and phase step from `r` (R162 to R175, R200, R212). -/
def opRender (r : Render) (inp : Inputs) (s : State) : State :=
  match seqStateOf s.seq with
  | .clear => opClear inp s
  | .poll => opPoll inp s
  | .debounce => opDebounce inp s
  | .confirm => opConfirm inp s
  | .passInit => opPassInit inp s
  | .fill => opFill r inp s
  | .txStart => opTxStart inp s
  | .txWait => opTxWait r inp s
  | .delay => opDelay inp s
  | .step => opStep r inp s
  | .unused => opUnused inp s

end Sys2Proof.Machine
end

