-- ==== Sys2Proof/Machine/Animation.lean ====
section
/-! DEFINITION. The meanings of the MODE instructions (spec/42_animation_engine.md R162 to R168, R171, R175): what the
engine does in a cycle whose mode register selects them. A frame is many such cycles (R212; assumption 6). -/

namespace Sys2Proof.Machine

/-- `BREATHE_RED`: hue mask (1, 0, 0) (R162). -/
def execBreatheRed (s : State) : Host.Outcome State Fault Refusal :=
  runCycle (opRender (.breathe ⟨true, false, false⟩)) s

/-- `BREATHE_YELLOW`: hue mask (1, 1, 0) (R163). -/
def execBreatheYellow (s : State) : Host.Outcome State Fault Refusal :=
  runCycle (opRender (.breathe ⟨true, true, false⟩)) s

/-- `BREATHE_GREEN`: hue mask (0, 1, 0) (R164). -/
def execBreatheGreen (s : State) : Host.Outcome State Fault Refusal :=
  runCycle (opRender (.breathe ⟨false, true, false⟩)) s

/-- `BREATHE_CYAN`: hue mask (0, 1, 1) (R165). -/
def execBreatheCyan (s : State) : Host.Outcome State Fault Refusal :=
  runCycle (opRender (.breathe ⟨false, true, true⟩)) s

/-- `BREATHE_BLUE`: hue mask (0, 0, 1) (R166). -/
def execBreatheBlue (s : State) : Host.Outcome State Fault Refusal :=
  runCycle (opRender (.breathe ⟨false, false, true⟩)) s

/-- `BREATHE_PURPLE`: hue mask (1, 0, 1) (R167). -/
def execBreathePurple (s : State) : Host.Outcome State Fault Refusal :=
  runCycle (opRender (.breathe ⟨true, false, true⟩)) s

/-- `BREATHE_WHITE`: hue mask (1, 1, 1) (R168). -/
def execBreatheWhite (s : State) : Host.Outcome State Fault Refusal :=
  runCycle (opRender (.breathe ⟨true, true, true⟩)) s

/-- `RAINBOW_CHASE` (R171). -/
def execRainbowChase (s : State) : Host.Outcome State Fault Refusal :=
  runCycle (opRender .chase) s

/-- `OFF`: the low bits of the code are ignored (R175). -/
def execOff (_x : BitVec 3) (s : State) : Host.Outcome State Fault Refusal :=
  runCycle (opRender .off) s

end Sys2Proof.Machine
end

