-- ==== Sys2Proof/Machine/ButtonSampler.lean ====
section
/-! DEFINITION. The meanings of the button sampler's instructions (spec/40_button_sampler.md R121 to R123). -/

namespace Sys2Proof.Machine

/-- `POLL` (R121). -/
def execPoll (s : State) : Host.Outcome State Fault Refusal := runCycle opPoll s

/-- `DEBOUNCE` (R122). -/
def execDebounce (s : State) : Host.Outcome State Fault Refusal := runCycle opDebounce s

/-- `CONFIRM` (R123), which holds ADVANCE (R140). -/
def execConfirm (s : State) : Host.Outcome State Fault Refusal := runCycle opConfirm s

end Sys2Proof.Machine
end

