-- ==== Sys2Proof/Machine/FrameWriter.lean ====
section
/-! DEFINITION. The meanings of the frame writer's and pass control's instructions
(spec/43_frame_writer_and_pass_control.md R201 to R209) and of the unused codes (spec/60_exceptions.md R243). -/

namespace Sys2Proof.Machine

/-- `CLEAR` (R201). -/
def execClear (s : State) : Host.Outcome State Fault Refusal := runCycle opClear s

/-- `PASS_INIT` (R202). -/
def execPassInit (s : State) : Host.Outcome State Fault Refusal := runCycle opPassInit s

/-- `FILL` (R203, R204). -/
def execFill (s : State) : Host.Outcome State Fault Refusal := runCycle (opFill (renderOf s.mode)) s

/-- `TX_START` (R206). -/
def execTxStart (s : State) : Host.Outcome State Fault Refusal := runCycle opTxStart s

/-- `TX_WAIT` (R207). -/
def execTxWait (s : State) : Host.Outcome State Fault Refusal := runCycle (opTxWait (renderOf s.mode)) s

/-- `DELAY` (R208). -/
def execDelay (s : State) : Host.Outcome State Fault Refusal := runCycle opDelay s

/-- `STEP` (R209). -/
def execStep (s : State) : Host.Outcome State Fault Refusal := runCycle (opStep (renderOf s.mode)) s

/-- `UNUSED_SEQ`, codes `101x` (R243). -/
def execUnusedSeqA (_x : BitVec 1) (s : State) : Host.Outcome State Fault Refusal := runCycle opUnused s

/-- `UNUSED_SEQ`, codes `11xx` (R243). -/
def execUnusedSeqC (_x : BitVec 2) (s : State) : Host.Outcome State Fault Refusal := runCycle opUnused s

end Sys2Proof.Machine
end

