-- ==== Sys2Proof/Machine/Dispatch.lean ====
section
/-! DEFINITION. The dispatch: one arm per constructor of `Instr`, each one call of its meaning. -/

namespace Sys2Proof.Machine

def exec (i : Instr) (s : State) : Host.Outcome State Fault Refusal :=
  match i with
  | .breatheRed => Sys2Proof.Machine.execBreatheRed s
  | .breatheYellow => Sys2Proof.Machine.execBreatheYellow s
  | .breatheGreen => Sys2Proof.Machine.execBreatheGreen s
  | .breatheCyan => Sys2Proof.Machine.execBreatheCyan s
  | .breatheBlue => Sys2Proof.Machine.execBreatheBlue s
  | .breathePurple => Sys2Proof.Machine.execBreathePurple s
  | .breatheWhite => Sys2Proof.Machine.execBreatheWhite s
  | .rainbowChase => Sys2Proof.Machine.execRainbowChase s
  | .off x => Sys2Proof.Machine.execOff x s
  | .clear => Sys2Proof.Machine.execClear s
  | .poll => Sys2Proof.Machine.execPoll s
  | .debounce => Sys2Proof.Machine.execDebounce s
  | .confirm => Sys2Proof.Machine.execConfirm s
  | .passInit => Sys2Proof.Machine.execPassInit s
  | .fill => Sys2Proof.Machine.execFill s
  | .txStart => Sys2Proof.Machine.execTxStart s
  | .txWait => Sys2Proof.Machine.execTxWait s
  | .delay => Sys2Proof.Machine.execDelay s
  | .step => Sys2Proof.Machine.execStep s
  | .unusedSeqA x => Sys2Proof.Machine.execUnusedSeqA x s
  | .unusedSeqC x => Sys2Proof.Machine.execUnusedSeqC x s

end Sys2Proof.Machine
end

