-- ==== Sys2Proof/Machine/Step.lean ====
section
/-! DEFINITION. One rising edge of `clk` (spec/00_scope.md R12): reset overrides everything else (spec/60_exceptions.md
R244); otherwise the engine performs the one operation `seq` names (spec/43_frame_writer_and_pass_control.md R200). -/

namespace Sys2Proof.Machine

/-- One cycle of the engine. -/
def step (s : State) : Host.Outcome State Fault Refusal :=
  if (inputsNow s).rst then resetCycle s else exec (fetch s) s

/-- The state with a code placed where `step` fetches its next operation: the register `seq`. A cycle with `rst = 1`
performs no operation (R270), so this cycle's `rst` is 0; where no stimulus is written for this cycle, it is a quiet
one (assumption 5). -/
def State.withFetchWord (s : State) (_nbits w : Nat) : State :=
  { s with
    seq := BitVec.ofNat 4 w
    stim :=
      match s.stim with
      | [] => [Inputs.quiet s.params]
      | i :: rest => { i with rst := false } :: rest }

end Sys2Proof.Machine
end

