-- ==== Sys2Proof/Machine/Observe.lean ====
section
/-! DEFINITION. What a claim observes (spec/43_frame_writer_and_pass_control.md R213): frame events, their snapshots and
their wire bytes; and runs of the engine over several cycles. -/

namespace Sys2Proof.Machine

/-- A frame event: a cycle with `tx_start = 1`, the mode in it and the frame buffer's snapshot (R213). -/
structure FrameEvent where
  cycle : Nat
  mode : Code
  snapshot : List Pixel
  deriving DecidableEq, Repr

/-- The frame buffer's `N` pixels as they stand in this cycle. -/
def snapshot (s : State) : List Pixel := (List.range s.params.n).map (memPixel s.fb)

/-- The frame event of this cycle, if there is one (R213). -/
def frameEvent (s : State) : Option FrameEvent :=
  if txStartOut s then some ⟨s.cycle, s.mode, snapshot s⟩ else none

/-- The frame's wire bytes: `FbReadByte(0)` to `FbReadByte(3N - 1)` (R64, R213). -/
def wireBytes (s : State) : List Byte := (List.range (3 * s.params.n)).map (fbReadByte s)

/-- `k` cycles of the engine, stopping at the first refusal. -/
def runCycles : Nat → State → Host.Outcome State Fault Refusal
  | 0, s => .next s
  | k + 1, s =>
    match step s with
    | .next t => runCycles k t
    | .fault f => .fault f
    | .refused r => .refused r

/-- No reset in the next `k` cycles. -/
def noReset (s : State) (k : Nat) : Bool := (List.range k).all (fun j => !(inputsAt s j).rst)

/-- How many of the next `k` cycles have `tick = 1`. -/
def ticksIn (s : State) (k : Nat) : Nat := (List.range k).countP (fun j => (inputsAt s j).tick)

/-- None of the next `k` cycles has `tx_done = 1`. -/
def noTxDone (s : State) (k : Nat) : Bool := (List.range k).all (fun j => !(inputsAt s j).txDone)

end Sys2Proof.Machine
end

