-- ==== Sys2Proof/Safety.lean ====
section
/-! DEFINITION. What claims call a good state and a well-behaved environment: the canonical memory, the registers' widths,
the reachable ranges of spec/10_state.md R41, the progress of the boot clear (R201), and the contracts of the agents
outside the block (spec/60_exceptions.md R250, spec/70_reset_and_hazards.md R281). -/

namespace Sys2Proof.Machine

/-- The frame buffer is in canonical form and lists no address outside the byte view `0..3N-1` (R60). -/
abbrev State.memoryOk (s : State) : Prop := Memory.wf s.fb = true ∧ ∀ c ∈ s.fb, c.1 < 3 * s.params.n

/-- `head` and `fidx` list no bits above the `IDX_W` the registers have (R26, R29); no operation would read them. -/
abbrev State.widthsOk (s : State) : Prop :=
  s.head.toNat < 2 ^ s.params.idxW ∧ s.fidx.toNat < 2 ^ s.params.idxW

/-- The greatest count `dly` is loaded with (R41). -/
def maxWait (p : Params) : Nat := max p.debounceTicks (max p.breatheDly p.chaseDly)

/-- The register ranges of R41, and `mid` is 0 in the primary variant (R31). -/
structure State.RegistersInRange (s : State) : Prop where
  seq : s.seq.toNat ≤ 9
  mode : s.mode.toNat ≤ 7
  phase : s.phase.toNat ≤ s.params.maxB
  sub : s.sub.toNat ≤ 5
  head : s.head.toNat < s.params.n
  fidx : s.fidx.toNat < s.params.n
  dly : s.dly.toNat ≤ maxWait s.params
  mid : s.params.pollEachFrame = false → s.mid = false

/-- Every channel value that has been written is at most `MAXB` (R41, R176). -/
abbrev State.channelsInRange (s : State) : Prop := ∀ c ∈ s.fb, c.2.toNat ≤ s.params.maxB

/-- The boot clear's progress: while `seq` is `CLEAR` the pixels below `fidx` have been written, and in every other
state all `N` have (R201). A byte that has been written never reads as the power-up value. -/
abbrev State.cleared (s : State) : Prop :=
  ∀ a, a < 3 * (if s.seq = seqClear then s.fidx.toNat else s.params.n) → (memRead s.fb a).isSome = true

/-- The fill index is 0 but in `CLEAR` and in a full-strip `FILL`; the chase neither uses nor changes it (R201, R203, R204). -/
abbrev State.fillIndexIdle (s : State) : Prop := s.seq ≠ seqClear → (s.seq ≠ seqFill ∨ s.mode = 7) → s.fidx = 0

/-- While a first sample waits to be confirmed, it differs from idle and from the accepted sample (R123). -/
abbrev State.candidatePending (s : State) : Prop :=
  s.seq = seqDebounce ∨ s.seq = seqConfirm → s.btnCand ≠ btnIdle ∧ s.btnCand ≠ s.btnAcc

/-- The state with the port values of this cycle chosen; the later cycles' stay. -/
def withInputs (s : State) (i : Inputs) : State := { s with stim := i :: s.stim.tail }

/-- The index of the pixel an instruction's cycle addresses with its one pixel write, if it makes one: `fidx` in `CLEAR`
and in a full-strip `FILL`, `head` in the chase's (R201, R203, R204). A MODE instruction writes when `seq` is one of the two. -/
def pixelAddressed (i : Instr) (s : State) : Option Nat :=
  match i with
  | .clear => some s.fidxReg.toNat
  | .fill => if s.mode = 7 then some s.headReg.toNat else some s.fidxReg.toNat
  | .rainbowChase =>
    if s.seq = seqClear then some s.fidxReg.toNat else if s.seq = seqFill then some s.headReg.toNat else none
  | .breatheRed | .breatheYellow | .breatheGreen | .breatheCyan | .breatheBlue | .breathePurple | .breatheWhite
  | .off _ => if s.seq = seqClear ∨ s.seq = seqFill then some s.fidxReg.toNat else none
  | .poll | .debounce | .confirm | .passInit | .txStart | .txWait | .delay | .step | .unusedSeqA _
  | .unusedSeqC _ => none

/-- The transmitter keeps its contract in this cycle: `tx_done` only while the engine waits for it, so strictly after
the `tx_start` cycle and at most once for it (R281). -/
abbrev keepsTxContract (s : State) : Prop := (inputsNow s).txDone = true → s.seq = seqTxWait

end Sys2Proof.Machine
end

