-- ==== Sys2Proof/Certificates/Slice0/Obligations.lean ====
section
/-! DEFINITION. The statements for the provers. `passCycle s` is what every cycle does beside its operation: the read port's
latch and the passing of one cycle, stated in `ReadPortLatchesTheByteAddressed`; an equation `exec i s = .next (… passCycle s …)`
with a record update therefore says both what the instruction writes and that it leaves everything else. `s.headReg` and `s.fidxReg`
are the `IDX_W` bits of the index registers (assumption 7). Codes and constants are written out as the spec gives them. -/

open Sys2Proof Sys2Proof.Machine

/-! ## The sequencer's instructions, each with its whole next state -/

/-- R201's operation. -/
def Obligations.ClearWritesOneDarkPixel : Prop :=
  decodeSeq 0x0 = .clear ∧
  ∀ s : State, s.params.legal = true →
    exec .clear s = .next
      (let t := fbWrite (passCycle s) s.fidxReg.toNat ⟨0, 0, 0⟩
       if s.fidxReg.toNat ≥ s.params.n - 1 then { t with fidx := 0, seq := 0x1 }
       else { t with fidx := BitVec.ofNat 16 (s.fidxReg.toNat + 1) })

/-- R121. -/
def Obligations.PollTakesTheFirstSample : Prop :=
  decodeSeq 0x1 = .poll ∧
  ∀ s : State, s.params.legal = true →
    exec .poll s = .next
      (let b := (inputsNow s).btn
       if b ≠ 0xFF ∧ b ≠ s.btnAcc then
         { passCycle s with btnCand := b, dly := BitVec.ofNat 8 s.params.debounceTicks, seq := 0x2 }
       else
         { passCycle s with
           btnCand := b, btnAcc := if s.params.releaseClears = true ∧ b = 0xFF then 0xFF else s.btnAcc,
           seq := if s.mid then 0x5 else 0x4, mid := false })

/-- R122's operation. -/
def Obligations.DebounceCountsOneTick : Prop :=
  decodeSeq 0x2 = .debounce ∧
  ∀ s : State, s.params.legal = true →
    exec .debounce s = .next
      (if (inputsNow s).tick = true then
         if s.dly.toNat ≤ 1 then { passCycle s with dly := 0, seq := 0x3 }
         else { passCycle s with dly := BitVec.ofNat 8 (s.dly.toNat - 1) }
       else passCycle s)

/-- R123, with R140's ADVANCE written out in the edge branch. -/
def Obligations.ConfirmReportsAnEdgeOrNone : Prop :=
  decodeSeq 0x3 = .confirm ∧
  ∀ s : State, s.params.legal = true →
    exec .confirm s = .next
      (let b := (inputsNow s).btn
       if b = s.btnCand ∧ b ≠ 0xFF ∧ b ≠ s.btnAcc then
         { passCycle s with
           btnCand := b, btnAcc := b,
           mode := if s.mode.toNat ≤ 6 then BitVec.ofNat 4 (s.mode.toNat + 1) else 0,
           head := 0, seq := 0x4, mid := false }
       else
         { passCycle s with btnCand := b, seq := if s.mid then 0x5 else 0x4, mid := false })

/-- R202. -/
def Obligations.PassInitSetsTheCursors : Prop :=
  decodeSeq 0x4 = .passInit ∧
  ∀ s : State, s.params.legal = true →
    exec .passInit s = .next { passCycle s with phase := 0, dir := false, sub := 0, fidx := 0, seq := 0x5 }

/-- R203 and R204: a FILL cycle, whichever the mode. The pixel's value is stated in `FrameColours`. -/
def Obligations.FillWritesOnePixel : Prop :=
  decodeSeq 0x5 = .fill ∧
  ∀ s : State, s.params.legal = true →
    exec .fill s = .next
      (let x := framePixel (renderOf s.mode) s.params s.phase s.sub
       if s.mode = 7 then { fbWrite (passCycle s) s.headReg.toNat x with seq := 0x6 }
       else
         let t := fbWrite (passCycle s) s.fidxReg.toNat x
         if s.fidxReg.toNat ≥ s.params.n - 1 then { t with fidx := 0, seq := 0x6 }
         else { t with fidx := BitVec.ofNat 16 (s.fidxReg.toNat + 1) })

/-- R206: the transfer to `TX_WAIT`, and `tx_start` high in exactly the `TX_START` cycles without reset; once per frame, since
`TX_START` is entered only from `FILL`. -/
def Obligations.TxStartPulsesOnce : Prop :=
  decodeSeq 0x6 = .txStart ∧
  (∀ s : State, s.params.legal = true → exec .txStart s = .next { passCycle s with seq := 0x7 }) ∧
  (∀ s : State, txStartOut s = true ↔ s.seq = 0x6 ∧ (inputsNow s).rst = false) ∧
  (∀ s : State, (txLenOut s).toNat = 3 * s.params.n) ∧
  (∀ s t : State, step s = .next t → txStartOut s = true → txStartOut t = false) ∧
  (∀ s t : State, step s = .next t → t.seq = 0x6 → s.seq = 0x5)

/-- R207, with R178's delays; a `tx_done` in any other state is ignored. -/
def Obligations.TxWaitWaitsForDone : Prop :=
  decodeSeq 0x7 = .txWait ∧
  (∀ (s : State) (i : Inputs) (d : Bool), s.seq ≠ 0x7 →
    step (withInputs s { i with txDone := d }) = step (withInputs s i)) ∧
  ∀ s : State, s.params.legal = true →
    exec .txWait s = .next
      (if (inputsNow s).txDone = true then
         if 8 ≤ s.mode.toNat then { passCycle s with seq := 0x1 }
         else
           { passCycle s with
             dly := BitVec.ofNat 8 (if s.mode.toNat ≤ 6 then s.params.breatheDly else s.params.chaseDly), seq := 0x8 }
       else passCycle s)

/-- R208's operation. -/
def Obligations.DelayCountsOneTick : Prop :=
  decodeSeq 0x8 = .delay ∧
  ∀ s : State, s.params.legal = true →
    exec .delay s = .next
      (if (inputsNow s).tick = true then
         if s.dly.toNat ≤ 1 then { passCycle s with dly := 0, seq := 0x9 }
         else { passCycle s with dly := BitVec.ofNat 8 (s.dly.toNat - 1) }
       else passCycle s)

/-- R209, with R169's and R172's phase steps written out. -/
def Obligations.StepMovesThePhase : Prop :=
  decodeSeq 0x9 = .step ∧
  ∀ s : State, s.params.legal = true →
    let passDone (t : State) : State := { t with mid := false, seq := 0x1 }
    let goOn (t : State) : State :=
      if s.params.pollEachFrame = true then { t with mid := true, seq := 0x1 } else { t with seq := 0x5 }
    let head' : Index := if s.headReg.toNat ≥ s.params.n - 1 then 0 else BitVec.ofNat 16 (s.headReg.toNat + 1)
    exec .step s = .next
      (if s.mode.toNat ≤ 6 then
         if s.dir = false then
           if s.phase.toNat ≥ s.params.maxB then
             goOn { passCycle s with dir := true, phase := BitVec.ofNat 8 (s.params.maxB - 1) }
           else goOn { passCycle s with phase := BitVec.ofNat 8 (s.phase.toNat + 1) }
         else
           if s.phase = 0 then passDone (passCycle s)
           else goOn { passCycle s with phase := BitVec.ofNat 8 (s.phase.toNat - 1) }
       else if s.mode.toNat = 7 then
         if s.phase.toNat ≥ s.params.maxB - 1 then
           if s.sub.toNat ≥ 5 then passDone { passCycle s with phase := 0, sub := 0, head := head' }
           else goOn { passCycle s with phase := 0, sub := BitVec.ofNat 3 (s.sub.toNat + 1), head := head' }
         else goOn { passCycle s with phase := BitVec.ofNat 8 (s.phase.toNat + 1), head := head' }
       else passDone (passCycle s))

/-- R243, both rows. -/
def Obligations.UnusedCodesGoToPoll : Prop :=
  (∀ c : Code, 0xA ≤ c.toNat → (∃ x, decodeSeq c = .unusedSeqA x) ∨ ∃ x, decodeSeq c = .unusedSeqC x) ∧
  ∀ s : State, s.params.legal = true →
    (∀ x, exec (.unusedSeqA x) s = .next { passCycle s with mid := false, seq := 0x1 }) ∧
    (∀ x, exec (.unusedSeqC x) s = .next { passCycle s with mid := false, seq := 0x1 }) ∧
    (0xA ≤ s.seq.toNat → txStartOut s = false)

/-! ## The mode instructions -/

/-- R162 to R168: a breathe mode's code, and its instruction in each cycle of its frame. That a MODE instruction's one-step
effect is the engine's cycle of its frame is the model's choice (assumption 6); the masks of the hues but red are R93's
general knowledge (assumption 13). -/
def Obligations.BreatheInstructionsRunTheirFrame : Prop :=
  (List.range 7).map (fun k => decodeMode (BitVec.ofNat 4 k)) =
    [.breatheRed, .breatheYellow, .breatheGreen, .breatheCyan, .breatheBlue, .breathePurple, .breatheWhite] ∧
  ∀ s : State, s.params.legal = true →
    ∀ row ∈ [(Instr.breatheRed, 1, 0, 0), (.breatheYellow, 1, 1, 0), (.breatheGreen, 0, 1, 0), (.breatheCyan, 0, 1, 1),
             (.breatheBlue, 0, 0, 1), (.breathePurple, 1, 0, 1), (.breatheWhite, 1, 1, 1)],
      let level (m : Nat) : Byte := BitVec.ofNat 8 (min (m * s.phase.toNat) s.params.maxB)
      let goOn (t : State) : State :=
        if s.params.pollEachFrame = true then { t with mid := true, seq := 0x1 } else { t with seq := 0x5 }
      (s.seq = 0x5 →
        exec row.1 s = .next
          (let t := fbWrite (passCycle s) s.fidxReg.toNat ⟨level row.2.1, level row.2.2.1, level row.2.2.2⟩
           if s.fidxReg.toNat ≥ s.params.n - 1 then { t with fidx := 0, seq := 0x6 }
           else { t with fidx := BitVec.ofNat 16 (s.fidxReg.toNat + 1) })) ∧
      (s.seq = 0x6 → exec row.1 s = .next { passCycle s with seq := 0x7 }) ∧
      (s.seq = 0x7 →
        exec row.1 s = .next
          (if (inputsNow s).txDone = true then
             { passCycle s with dly := BitVec.ofNat 8 s.params.breatheDly, seq := 0x8 }
           else passCycle s)) ∧
      (s.seq = 0x8 → exec row.1 s = exec .delay s) ∧
      (s.seq = 0x9 →
        exec row.1 s = .next
          (if s.dir = false then
             if s.phase.toNat ≥ s.params.maxB then
               goOn { passCycle s with dir := true, phase := BitVec.ofNat 8 (s.params.maxB - 1) }
             else goOn { passCycle s with phase := BitVec.ofNat 8 (s.phase.toNat + 1) }
           else
             if s.phase = 0 then { passCycle s with mid := false, seq := 0x1 }
             else goOn { passCycle s with phase := BitVec.ofNat 8 (s.phase.toNat - 1) }))

/-- R171 with R172 and R174: the chase's instruction in each cycle of its frame; a FILL writes the head pixel alone. That a MODE
instruction's one-step effect is the engine's cycle of its frame is the model's choice (assumption 6). -/
def Obligations.RainbowChaseRunsItsFrame : Prop :=
  decodeMode 0x7 = .rainbowChase ∧
  ∀ s : State, s.params.legal = true →
    let top : Byte := BitVec.ofNat 8 s.params.maxB
    let rise : Byte := BitVec.ofNat 8 (min s.phase.toNat s.params.maxB)
    let fall : Byte := BitVec.ofNat 8 (s.params.maxB - s.phase.toNat)
    let x : Pixel :=
      if s.sub = 0 then ⟨top, rise, 0⟩ else if s.sub = 1 then ⟨fall, top, 0⟩ else if s.sub = 2 then ⟨0, top, rise⟩
      else if s.sub = 3 then ⟨0, fall, top⟩ else if s.sub = 4 then ⟨rise, 0, top⟩ else if s.sub = 5 then ⟨top, 0, fall⟩
      else ⟨0, 0, 0⟩
    let goOn (t : State) : State :=
      if s.params.pollEachFrame = true then { t with mid := true, seq := 0x1 } else { t with seq := 0x5 }
    let head' : Index := if s.headReg.toNat ≥ s.params.n - 1 then 0 else BitVec.ofNat 16 (s.headReg.toNat + 1)
    (s.seq = 0x5 → exec .rainbowChase s = .next { fbWrite (passCycle s) s.headReg.toNat x with seq := 0x6 }) ∧
    (s.seq = 0x6 → exec .rainbowChase s = .next { passCycle s with seq := 0x7 }) ∧
    (s.seq = 0x7 →
      exec .rainbowChase s = .next
        (if (inputsNow s).txDone = true then
           { passCycle s with dly := BitVec.ofNat 8 s.params.chaseDly, seq := 0x8 }
         else passCycle s)) ∧
    (s.seq = 0x8 → exec .rainbowChase s = exec .delay s) ∧
    (s.seq = 0x9 →
      exec .rainbowChase s = .next
        (if s.phase.toNat ≥ s.params.maxB - 1 then
           if s.sub.toNat ≥ 5 then { passCycle s with phase := 0, sub := 0, head := head', mid := false, seq := 0x1 }
           else goOn { passCycle s with phase := 0, sub := BitVec.ofNat 3 (s.sub.toNat + 1), head := head' }
         else goOn { passCycle s with phase := BitVec.ofNat 8 (s.phase.toNat + 1), head := head' }))

/-- R175: the off fallback's instruction, for every code `1xxx`: dark pixels, one transmit, then the pass is over. That
a MODE instruction's one-step effect is the engine's cycle of its frame, in `DELAY` and `STEP` too, is the model's choice
(assumption 6). -/
def Obligations.OffShowsOneDarkFrame : Prop :=
  (∀ c : Code, 8 ≤ c.toNat → ∃ x, decodeMode c = .off x) ∧
  ∀ (s : State) (x : BitVec 3), s.params.legal = true →
    (s.seq = 0x5 →
      exec (.off x) s = .next
        (let t := fbWrite (passCycle s) s.fidxReg.toNat ⟨0, 0, 0⟩
         if s.fidxReg.toNat ≥ s.params.n - 1 then { t with fidx := 0, seq := 0x6 }
         else { t with fidx := BitVec.ofNat 16 (s.fidxReg.toNat + 1) })) ∧
    (s.seq = 0x6 → exec (.off x) s = .next { passCycle s with seq := 0x7 }) ∧
    (s.seq = 0x7 →
      exec (.off x) s = .next (if (inputsNow s).txDone = true then { passCycle s with seq := 0x1 } else passCycle s)) ∧
    (s.seq = 0x8 → exec (.off x) s = exec .delay s) ∧
    (s.seq = 0x9 → exec (.off x) s = .next { passCycle s with mid := false, seq := 0x1 })

/-- Outside a frame's cycles a MODE instruction's cycle is the operation that `seq` names, whichever MODE instruction it is
(R200; assumption 6). What that operation does may still read the register `mode`, as `CONFIRM` does on an edge. -/
def Obligations.ModeInstructionsOutsideAFrame : Prop :=
  ∀ (s : State) (i : Instr), i.format = .mode → s.seq ∉ [0x5#4, 0x6#4, 0x7#4, 0x8#4, 0x9#4] →
    exec i s = exec (decodeSeq s.seq) s

/-- One cycle has two readings, the operation in `seq` and the render operation in `mode`, and they agree (R200, R210;
assumption 6). -/
def Obligations.ModeAndSeqCodesAgree : Prop :=
  ∀ s : State, exec (decodeMode s.mode) s = exec (decodeSeq s.seq) s

/-! ## Colours and phases -/

/-- R93, R160, R161, R171, R175, R176: the pixel a frame writes, for every mode code. The masks of the hues but red are
R93's general knowledge (assumption 13). -/
def Obligations.FrameColours : Prop :=
  ∀ (p : Params) (v : Byte) (s : BitVec 3), p.legal = true →
    let top : Byte := BitVec.ofNat 8 p.maxB
    let rise : Byte := BitVec.ofNat 8 (min v.toNat p.maxB)
    let fall : Byte := BitVec.ofNat 8 (p.maxB - v.toNat)
    framePixel (renderOf 0) p v s = ⟨rise, 0, 0⟩ ∧ framePixel (renderOf 1) p v s = ⟨rise, rise, 0⟩ ∧
    framePixel (renderOf 2) p v s = ⟨0, rise, 0⟩ ∧ framePixel (renderOf 3) p v s = ⟨0, rise, rise⟩ ∧
    framePixel (renderOf 4) p v s = ⟨0, 0, rise⟩ ∧ framePixel (renderOf 5) p v s = ⟨rise, 0, rise⟩ ∧
    framePixel (renderOf 6) p v s = ⟨rise, rise, rise⟩ ∧
    framePixel (renderOf 7) p v 0 = ⟨top, rise, 0⟩ ∧ framePixel (renderOf 7) p v 1 = ⟨fall, top, 0⟩ ∧
    framePixel (renderOf 7) p v 2 = ⟨0, top, rise⟩ ∧ framePixel (renderOf 7) p v 3 = ⟨0, fall, top⟩ ∧
    framePixel (renderOf 7) p v 4 = ⟨rise, 0, top⟩ ∧ framePixel (renderOf 7) p v 5 = ⟨top, 0, fall⟩ ∧
    framePixel (renderOf 7) p v 6 = ⟨0, 0, 0⟩ ∧ framePixel (renderOf 7) p v 7 = ⟨0, 0, 0⟩ ∧
    (∀ m : Code, 8 ≤ m.toNat → framePixel (renderOf m) p v s = ⟨0, 0, 0⟩)

/-- From in-range phases the clamp changes nothing, and no channel of any colour exceeds the ceiling (R176's second
part, which the spec marks as derived). -/
def Obligations.ClampOnlyActsOutOfRange : Prop :=
  ∀ (m : Code) (p : Params) (v : Byte) (s : BitVec 3), p.legal = true →
    (v.toNat ≤ p.maxB → framePixel (renderOf m) p v s = colour (renderOf m) p v s) ∧
    ∀ x : Pixel, (clamp p x).r.toNat = min x.r.toNat p.maxB ∧ (clamp p x).g.toNat = min x.g.toNat p.maxB ∧
      (clamp p x).b.toNat = min x.b.toNat p.maxB

/-- R141, derived in the spec from R140: the advance law. -/
def Obligations.AdvancesCycleThroughTheModes : Prop :=
  (∀ (m : Code) (k : Nat), m.toNat ≤ 7 → (nextMode^[k] m).toNat = (m.toNat + k) % 8) ∧
  (∀ (m : Code) (k : Nat), 8 ≤ m.toNat → 1 ≤ k → (nextMode^[k] m).toNat = (k - 1) % 8)

/-- R170, derived in the spec: a breathe pass shows 0, 1, …, MAXB, …, 1, 0 and is complete after `2 * MAXB + 1` frames. -/
def Obligations.BreathePassRampsUpAndDown : Prop :=
  ∀ p : Params, p.legal = true →
    let after (j : Nat) : BreatheNext := (fun q => breatheStep p q.dir q.phase)^[j] ⟨false, 0, false⟩
    (∀ j ≤ 2 * p.maxB,
      (after j).phase.toNat = (if j ≤ p.maxB then j else 2 * p.maxB - j) ∧
      (after j).dir = decide (p.maxB < j) ∧ (after j).done = false) ∧
    (after (2 * p.maxB + 1)).done = true ∧ (after (2 * p.maxB + 1)).phase = 0

/-- R173, derived in the spec: frame `j` of a chase pass has sub-phase `j div MAXB` and step `j mod MAXB`, the head has
moved `j` pixels round the strip, and the pass is complete after `6 * MAXB` frames. -/
def Obligations.ChasePassVisitsSixSubPhases : Prop :=
  ∀ (p : Params) (h : Index), p.legal = true → h.toNat < p.n →
    let after (j : Nat) : ChaseNext := (fun q => chaseStep p q.phase q.sub q.head)^[j] ⟨0, 0, h, false⟩
    (∀ j < 6 * p.maxB,
      (after j).sub.toNat = j / p.maxB ∧ (after j).phase.toNat = j % p.maxB ∧
      (after j).head.toNat = (h.toNat + j) % p.n ∧ (after j).done = false) ∧
    (after (6 * p.maxB)).done = true ∧ (after (6 * p.maxB)).phase = 0 ∧ (after (6 * p.maxB)).sub = 0 ∧
    (after (6 * p.maxB)).head.toNat = (h.toNat + 6 * p.maxB) % p.n

/-! ## The frame buffer -/

/-- R61, R62, R205: a pixel write shows in the byte view as green, red, blue at `3i`, and nowhere else; outside the strip
it writes nothing; byte `a` of the view is green, red or blue of pixel `a div 3` by `a mod 3`, and 0x00 outside the frame. -/
def Obligations.PixelWritesShowInTheByteView : Prop :=
  ∀ (s : State) (i : Nat) (x : Pixel),
    (i < s.params.n →
      fbReadByte (fbWrite s i x) (3 * i) = x.g ∧ fbReadByte (fbWrite s i x) (3 * i + 1) = x.r ∧
      fbReadByte (fbWrite s i x) (3 * i + 2) = x.b) ∧
    (∀ a, a / 3 ≠ i → fbReadByte (fbWrite s i x) a = fbReadByte s a) ∧
    (s.params.n ≤ i → fbWrite s i x = s) ∧
    (∀ a, fbReadByte s a =
      (if 3 * s.params.n ≤ a then 0x00
       else if a % 3 = 0 then (memPixel s.fb (a / 3)).g
       else if a % 3 = 1 then (memPixel s.fb (a / 3)).r
       else (memPixel s.fb (a / 3)).b))

/-- R61, R64, R94: the wire bytes of the frame buffer are green, red, blue of each pixel in index order. -/
def Obligations.WireBytesAreGreenRedBlue : Prop :=
  ∀ s : State, wireBytes s = (snapshot s).flatMap (fun x => [x.g, x.r, x.b])

/-- R63, R270: in every cycle the read port latches the byte addressed, as the frame buffer stood at the start of the
cycle; in a reset cycle it latches 0x00. -/
def Obligations.ReadPortLatchesTheByteAddressed : Prop :=
  ∀ s t : State, step s = .next t →
    fbRdDataOut t = (if (inputsNow s).rst = true then 0x00 else fbReadByte s ((inputsNow s).fbRdAddr.toNat % 2 ^ s.params.addrW))

/-- The frame of every instruction over memory (of a MODE instruction by assumption 6): but for the three bytes of the pixel it addresses, every byte of the frame
buffer reads as before, and with an index outside the strip all of them do (R205). -/
def Obligations.EveryOtherByteIsUnchanged : Prop :=
  ∀ (i : Instr) (s t : State), exec i s = .next t → ∀ a : Nat,
    (∀ k, pixelAddressed i s = some k → k < s.params.n → ¬(3 * k ≤ a ∧ a < 3 * k + 3)) →
    memRead t.fb a = memRead s.fb a

/-- R72: no pixel is written but in `CLEAR` and `FILL`, so the frame the transmitter reads does not change from `TX_START`
until `tx_done` is seen. -/
def Obligations.FrameStableUntilDone : Prop :=
  (∀ s t : State, step s = .next t → s.seq ≠ 0x0 → s.seq ≠ 0x5 → t.fb = s.fb) ∧
  (∀ (s : State) (k : Nat), s.params.legal = true → s.seq = 0x6 → noReset s (k + 1) = true →
    (∀ j < k, (inputsAt s (j + 1)).txDone = false) →
    ∃ t, runCycles (k + 1) s = .next t ∧ t.seq = 0x7 ∧ t.fb = s.fb ∧ t.mode = s.mode)

/-! ## The machine -/

/-- A step without reset runs the operation decoded from `seq`, and nothing else; a code placed by `withFetchWord` is the
one that runs (R200). -/
def Obligations.StepRunsTheDecodedOperation : Prop :=
  (∀ s : State, (inputsNow s).rst = false → step s = exec (decodeSeq s.seq) s) ∧
  (∀ (s : State) (w : Nat) (i : Instr), decodeTableWord 8 w = some i →
    step (s.withFetchWord 8 w) = exec i (s.withFetchWord 8 w))

/-- R270. -/
def Obligations.ResetCycleSetsEveryRegister : Prop :=
  ∀ s : State, s.params.legal = true → (inputsNow s).rst = true →
    txStartOut s = false ∧
    ∃ t, step s = .next t ∧
      t = { passCycle s with
            seq := 0x0, mode := 0, btnAcc := 0xFF, btnCand := 0xFF, phase := 0, dir := false, sub := 0, head := 0,
            fidx := 0, dly := 0, mid := false, rdQ := 0x00 } ∧
      t.fb = s.fb ∧ ((inputsNow t).rst = false → step t = exec .clear t)

/-- R271: at power-up the index registers hold what `IDX_W` bits can hold, and one reset cycle leads from any power-up state to
the state after reset. -/
def Obligations.PowerUpNeedsOneResetCycle : Prop :=
  (∀ p : Params, (State.powerUp p).widthsOk) ∧
  ∀ (p : Params) (i : Inputs), p.legal = true → i.rst = true →
    ∃ t, step (withInputs (State.powerUp p) i) = .next t ∧ { t with stim := [], cycle := 0 } = State.resetOf p

/-- R8, D26, I21: outside the legal ranges every instruction, and reset, is refused. -/
def Obligations.IllegalParametersAreRefused : Prop :=
  ∀ s : State, s.params.legal = false →
    step s = .refused .illegalParameters ∧ ∀ i, exec i s = .refused .illegalParameters

/-- R214, derived in the spec from R200: every state has a next state in every cycle. -/
def Obligations.EveryStateHasANextState : Prop :=
  ∀ s : State, s.params.legal = true → (∃ t, step s = .next t) ∧ ∀ i, ∃ t, exec i s = .next t

/-- R284: nothing changes the parameters; and a cycle takes one cycle. -/
def Obligations.ParametersNeverChange : Prop :=
  (∀ s t : State, step s = .next t → t.params = s.params ∧ t.cycle = s.cycle + 1 ∧ ∀ k, inputsAt t k = inputsAt s (k + 1)) ∧
  (∀ (i : Instr) (s t : State), exec i s = .next t → t.params = s.params)

/-- R200: without reset the engine performs the operation `seq` names, and the possible next states are the table's. -/
def Obligations.NextStatesAreThoseOfTheTable : Prop :=
  ∀ s t : State, step s = .next t → (inputsNow s).rst = false →
    exec (decodeSeq s.seq) s = .next t ∧
    (s.seq = 0x0 → t.seq = 0x0 ∨ t.seq = 0x1) ∧
    (s.seq = 0x1 → t.seq = 0x2 ∨ t.seq = 0x4 ∨ (t.seq = 0x5 ∧ s.mid = true)) ∧
    (s.seq = 0x2 → t.seq = 0x2 ∨ t.seq = 0x3) ∧
    (s.seq = 0x3 → t.seq = 0x4 ∨ (t.seq = 0x5 ∧ s.mid = true ∧ t.mode = s.mode ∧ t.btnAcc = s.btnAcc)) ∧
    (s.seq = 0x4 → t.seq = 0x5) ∧
    (s.seq = 0x5 → t.seq = 0x5 ∨ t.seq = 0x6) ∧
    (s.seq = 0x6 → t.seq = 0x7) ∧
    (s.seq = 0x7 → t.seq = 0x7 ∨ t.seq = 0x8 ∨ (t.seq = 0x1 ∧ 8 ≤ s.mode.toNat)) ∧
    (s.seq = 0x8 → t.seq = 0x8 ∨ t.seq = 0x9) ∧
    (s.seq = 0x9 → t.seq = 0x5 ∨ t.seq = 0x1) ∧
    (0xA ≤ s.seq.toNat → t.seq = 0x1)

/-- R142, R124, R143: without reset the mode changes only in the edge branch of `CONFIRM`, by one advance, and a new pass
follows. -/
def Obligations.ModeChangesOnlyOnAnEdge : Prop :=
  ∀ s t : State, step s = .next t → (inputsNow s).rst = false → t.mode ≠ s.mode →
    s.seq = 0x3 ∧ (inputsNow s).btn = s.btnCand ∧ (inputsNow s).btn ≠ 0xFF ∧ (inputsNow s).btn ≠ s.btnAcc ∧
    t.mode = nextMode s.mode ∧ t.head = 0 ∧ t.btnAcc = (inputsNow s).btn ∧ t.seq = 0x4

/-- R126: without reset the accepted sample changes only on an edge, or, in a build with `RELEASE_CLEARS_ACCEPTED = 1`,
at a poll that reads idle. -/
def Obligations.AcceptedSampleChangesOnlyOnAnEdge : Prop :=
  ∀ s t : State, step s = .next t → (inputsNow s).rst = false → t.btnAcc ≠ s.btnAcc →
    (s.seq = 0x3 ∧ (inputsNow s).btn = s.btnCand ∧ t.btnAcc = (inputsNow s).btn ∧ t.mode = nextMode s.mode) ∨
    (s.seq = 0x1 ∧ s.params.releaseClears = true ∧ (inputsNow s).btn = 0xFF ∧ t.btnAcc = 0xFF)

/-- R34, R244: an input matters only in the states that sample it. -/
def Obligations.InputsAreSampledOnlyWhereNamed : Prop :=
  ∀ (s : State) (i j : Inputs), i.rst = j.rst → i.fbRdAddr = j.fbRdAddr →
    (s.seq = 0x2 ∨ s.seq = 0x8 → i.tick = j.tick) →
    (s.seq = 0x1 ∨ s.seq = 0x3 → i.btn = j.btn) →
    (s.seq = 0x7 → i.txDone = j.txDone) →
    step (withInputs s i) = step (withInputs s j)

/-- R68, R249: the transmitter's reads change nothing but the read port's register. -/
def Obligations.ReadsHaveNoSideEffect : Prop :=
  ∀ (s t : State) (i : Inputs) (a : ByteAddr), step (withInputs s i) = .next t →
    step (withInputs s { i with fbRdAddr := a }) =
      .next { t with rdQ := if i.rst = true then 0x00 else fbReadByte s (a.toNat % 2 ^ s.params.addrW) }

/-- R60: no operation reads the frame buffer. With any other contents `m` in its place, the registers but `rd_q` are the same
after the step, so are the bytes of the pixel the operation writes, and every byte it does not write is `m`'s. -/
def Obligations.NoOperationReadsTheFrameBuffer : Prop :=
  ∀ (s t : State) (m : Memory), step s = .next t →
    ∃ t', step { s with fb := m } = .next t' ∧ { t' with fb := t.fb, rdQ := t.rdQ } = t ∧
      ((inputsNow s).rst = true → t'.fb = m) ∧
      ((inputsNow s).rst = false → ∀ a : Nat,
        (∀ k, pixelAddressed (decodeSeq s.seq) s = some k → k < s.params.n → 3 * k ≤ a → a < 3 * k + 3 →
          memRead t'.fb a = memRead t.fb a) ∧
        ((∀ k, pixelAddressed (decodeSeq s.seq) s = some k → k < s.params.n → ¬(3 * k ≤ a ∧ a < 3 * k + 3)) →
          memRead t'.fb a = memRead m a))

/-! ## Waits and fills, over several cycles -/

/-- R201's corner case: without a reset, `CLEAR` takes exactly `N` cycles from `fidx = 0`, makes every pixel dark, and
sends no frame on its way. -/
def Obligations.BootClearTakesNCycles : Prop :=
  ∀ s : State, s.params.legal = true → s.seq = 0x0 → s.fidx = 0 → noReset s s.params.n = true →
    (∀ k < s.params.n, ∃ t, runCycles k s = .next t ∧ t.seq = 0x0 ∧ txStartOut t = false) ∧
    ∃ t, runCycles s.params.n s = .next t ∧ t.seq = 0x1 ∧ t.fidx = 0 ∧
      snapshot t = List.replicate s.params.n ⟨0, 0, 0⟩

/-- R203's corner case and R162 to R168, R175: without a reset, a full-strip `FILL` from `fidx = 0` writes the same colour to
all `N` pixels in `N` cycles, and the frame is then sent. -/
def Obligations.FullStripFillTakesNCycles : Prop :=
  ∀ s : State, s.params.legal = true → s.seq = 0x5 → s.mode ≠ 7 → s.fidx = 0 → noReset s s.params.n = true →
    ∃ t, runCycles s.params.n s = .next t ∧ t.seq = 0x6 ∧ t.fidx = 0 ∧
      t.mode = s.mode ∧ t.dir = s.dir ∧ t.phase = s.phase ∧ t.sub = s.sub ∧ t.head = s.head ∧
      snapshot t = List.replicate s.params.n (framePixel (renderOf s.mode) s.params s.phase s.sub)

/-- R122 and R208, corner cases: a wait counts the ticks seen in it, lasts while fewer than its count have come, and ends in
the cycle that holds the last one; a count of 0 is treated as 1. -/
def Obligations.WaitsEndAtTheirLastTick : Prop :=
  ∀ (s : State) (k : Nat), s.params.legal = true → s.seq = 0x2 ∨ s.seq = 0x8 →
    (noReset s k = true → ticksIn s k < max 1 s.dly.toNat →
      ∃ t, runCycles k s = .next t ∧ t.seq = s.seq ∧ t.dly.toNat = s.dly.toNat - ticksIn s k) ∧
    (noReset s (k + 1) = true → ticksIn s k + 1 = max 1 s.dly.toNat → (inputsAt s k).tick = true →
      ∃ t, runCycles (k + 1) s = .next t ∧ t.dly = 0 ∧ t.seq = (if s.seq = 0x2 then 0x3 else 0x9))

/-! ## Invariants -/

/-- R41 for the registers: the reachable ranges hold in the next state of every state in which they hold. -/
def Obligations.RegisterRangesAreKept : Prop :=
  ∀ s t : State, s.RegistersInRange → step s = .next t → t.RegistersInRange

/-- R41, R60, R176 for the frame buffer: its form, its addresses and the ceiling on its channels are kept. -/
def Obligations.FrameBufferInvariantIsKept : Prop :=
  ∀ s t : State, s.memoryOk → s.channelsInRange → step s = .next t → t.memoryOk ∧ t.channelsInRange

/-- R33, R201: once the boot clear is over, every byte of the frame has been written, and stays so: no read of the frame
meets a byte of unspecified contents until the next reset. -/
def Obligations.ClearedFrameStaysWritten : Prop :=
  ∀ s t : State, s.cleared → step s = .next t → t.cleared

/-- R26, R29: the index registers stay within `IDX_W` bits. -/
def Obligations.IndexWidthsAreKept : Prop :=
  ∀ s t : State, s.widthsOk → step s = .next t → t.widthsOk

/-- R29: `fidx` is 0 outside the fills. -/
def Obligations.FillIndexIsIdleOutsideFills : Prop :=
  ∀ s t : State, s.fillIndexIdle → step s = .next t → t.fillIndexIdle

/-- R123's corner case: while a candidate is debounced and confirmed, it differs from idle and from the accepted sample. -/
def Obligations.CandidateStaysACandidate : Prop :=
  ∀ s t : State, s.candidatePending → step s = .next t → t.candidatePending

/-- The state after reset meets every invariant, for every legal configuration. -/
def Obligations.ResetMeetsTheInvariants : Prop :=
  (∀ p : Params, p.legal = true →
    (State.resetOf p).RegistersInRange ∧ (State.resetOf p).memoryOk ∧ (State.resetOf p).channelsInRange ∧
    (State.resetOf p).cleared ∧ (State.resetOf p).widthsOk ∧ (State.resetOf p).fillIndexIdle ∧
    (State.resetOf p).candidatePending) ∧
  State.reset.params.legal = true

/-! ## Widths -/

/-- R8, R11: `IDX_W`, `ADDR_W` and `LEN_W` are the least widths for the strip's indices, byte addresses and frame length, the
first two at least 1. That `LEN_W` is no wider is the model's choice (assumption 18). -/
def Obligations.WidthsFollowTheStripLength : Prop :=
  ∀ p : Params,
    (∀ k, p.idxW ≤ k ↔ 1 ≤ k ∧ p.n ≤ 2 ^ k) ∧ (∀ k, p.addrW ≤ k ↔ 1 ≤ k ∧ 3 * p.n ≤ 2 ^ k) ∧
    (∀ k, p.lenW ≤ k ↔ 3 * p.n + 1 ≤ 2 ^ k) ∧
    (p.legal = true → p.idxW ≤ 16 ∧ p.addrW ≤ 18 ∧ p.lenW ≤ 18)

/-! ## Encoding -/

/-- R91, R96: words written out from the code tables. -/
def Obligations.CodesOfTheTableDecode : Prop :=
  decodeBytes .mode [0b00000000] = .ok (.breatheRed, []) ∧
  decodeBytes .mode [0b00000101] = .ok (.breathePurple, []) ∧
  decodeBytes .mode [0b00000111] = .ok (.rainbowChase, []) ∧
  decodeBytes .mode [0b00001010] = .ok (.off 0b010, []) ∧
  decodeTableWord 8 0b0011 = some .confirm ∧
  decodeTableWord 8 0b1001 = some .step ∧
  decodeTableWord 8 0b1011 = some (.unusedSeqA 1) ∧
  decodeTableWord 8 0b1110 = some (.unusedSeqC 0b10) ∧
  decodeTableWord 8 0b00010000 = none

/-- R90, R91, R96, R98: encoding and decoding are inverse to each other in both formats, on every operand, and a byte
with a bit above bit 3 is no code. -/
def Obligations.DecodeAndEncodeAgree : Prop :=
  (∀ (i : Instr) (rest : List Byte), decodeBytes i.format (encodeBytes i ++ rest) = .ok (i, rest)) ∧
  (∀ (f : Format) (c : Code), (decodeCode f c).format = f ∧ encode (decodeCode f c) = c) ∧
  (∀ (f : Format) (b : Byte) (rest : List Byte), 16 ≤ b.toNat → decodeBytes f (b :: rest) = .error (.notACode b))

/-- R91: "Every 4-bit value decodes to exactly one row", in both formats, and to the instruction of that row. -/
def Obligations.EveryCodeIsExactlyOneRow : Prop :=
  ∀ (f : Format) (c : Code), (rowsOf f c).map (fun row => row.mnemonic) = [(decodeCode f c).mnemonic]
end

