-- ==== Sys2Proof/Laws/Config.lean ====
section
/-! SUPPORT. The derived widths of R8 hold what they must: `clog2 x` is an exponent whose power of two reaches `x`, and the
least one; and what a legal configuration says, as arithmetic. -/

namespace Sys2Proof

theorem clog2From_spec (x : Nat) : ∀ fuel k, x ≤ 2 ^ (k + fuel) → x ≤ 2 ^ clog2From x fuel k := by
  intro fuel
  induction fuel with
  | zero => intro k h; simpa [clog2From] using h
  | succ fuel ih =>
    intro k h
    unfold clog2From
    split
    · assumption
    · exact ih (k + 1) (by rwa [show k + 1 + fuel = k + (fuel + 1) by omega])

/-- The power of two at `clog2 x` reaches `x` (R11). -/
theorem le_two_pow_clog2 (x : Nat) : x ≤ 2 ^ clog2 x :=
  clog2From_spec x x 0 (by simpa using Nat.lt_two_pow_self.le)

/-- A strip index fits in `IDX_W` bits. -/
theorem le_two_pow_idxW (p : Params) : p.n ≤ 2 ^ p.idxW :=
  (le_two_pow_clog2 p.n).trans (Nat.pow_le_pow_right (by omega) (le_max_right _ _))

/-- `clog2From` answers the first exponent it meets that reaches `x`. -/
theorem clog2From_le (x : Nat) {j : Nat} (hj : x ≤ 2 ^ j) : ∀ fuel k, k ≤ j → clog2From x fuel k ≤ j := by
  intro fuel
  induction fuel with
  | zero => intro k h; exact h
  | succ fuel ih =>
    intro k h
    unfold clog2From
    split
    · exact h
    · rename_i hk
      rcases Nat.lt_or_eq_of_le h with h | rfl
      · exact ih (k + 1) h
      · exact absurd hj hk

/-- `clog2 x` is the least exponent whose power of two reaches `x` (R11). -/
theorem clog2_le_iff (x k : Nat) : clog2 x ≤ k ↔ x ≤ 2 ^ k :=
  ⟨fun h => (le_two_pow_clog2 x).trans (Nat.pow_le_pow_right (by omega) h), fun h => clog2From_le x h x 0 k.zero_le⟩

/-- The length of a frame fits in `LEN_W` bits. -/
theorem frame_length_lt (p : Params) : 3 * p.n < 2 ^ p.lenW := le_two_pow_clog2 (3 * p.n + 1)

/-- In a legal configuration the index registers are held in as many bits as they have, or more. -/
theorem Params.idxW_le {p : Params} (h : p.n ≤ 65535) : p.idxW ≤ 16 :=
  max_le (by omega) ((clog2_le_iff _ _).2 (by omega))

/-- A legal configuration, as arithmetic (R8). -/
theorem Params.legal_iff (p : Params) :
    p.legal = true ↔ (1 ≤ p.n ∧ p.n ≤ 65535) ∧ (1 ≤ p.maxB ∧ p.maxB ≤ 255) ∧
      (1 ≤ p.debounceTicks ∧ p.debounceTicks ≤ 255) ∧ (1 ≤ p.breatheDly ∧ p.breatheDly ≤ 255) ∧
      (1 ≤ p.chaseDly ∧ p.chaseDly ≤ 255) := by
  simp [Params.legal, Params.stripLegal, Params.ceilingLegal, ticksLegal, and_assoc]

end Sys2Proof
end

