-- ==== Sys2Proof/Laws/State.lean ====
section
/-! SUPPORT. One lemma per field for each named update of the state, so that no proof unfolds a record update. -/

namespace Sys2Proof.Machine

variable (s : State)

/-! What every cycle does beside its operation. -/

@[simp] theorem passCycle_params : (passCycle s).params = s.params := rfl
@[simp] theorem passCycle_seq : (passCycle s).seq = s.seq := rfl
@[simp] theorem passCycle_mode : (passCycle s).mode = s.mode := rfl
@[simp] theorem passCycle_btnAcc : (passCycle s).btnAcc = s.btnAcc := rfl
@[simp] theorem passCycle_btnCand : (passCycle s).btnCand = s.btnCand := rfl
@[simp] theorem passCycle_phase : (passCycle s).phase = s.phase := rfl
@[simp] theorem passCycle_dir : (passCycle s).dir = s.dir := rfl
@[simp] theorem passCycle_sub : (passCycle s).sub = s.sub := rfl
@[simp] theorem passCycle_head : (passCycle s).head = s.head := rfl
@[simp] theorem passCycle_fidx : (passCycle s).fidx = s.fidx := rfl
@[simp] theorem passCycle_headReg : (passCycle s).headReg = s.headReg := rfl
@[simp] theorem passCycle_fidxReg : (passCycle s).fidxReg = s.fidxReg := rfl
@[simp] theorem passCycle_dly : (passCycle s).dly = s.dly := rfl
@[simp] theorem passCycle_mid : (passCycle s).mid = s.mid := rfl
@[simp] theorem passCycle_rdQ : (passCycle s).rdQ = fbReadByte s (readAddr s) := rfl
@[simp] theorem passCycle_fb : (passCycle s).fb = s.fb := rfl
@[simp] theorem passCycle_stim : (passCycle s).stim = s.stim.tail := rfl
@[simp] theorem passCycle_cycle : (passCycle s).cycle = s.cycle + 1 := rfl

/-! The mode advance (R140). -/

@[simp] theorem advanceMode_params : (advanceMode s).params = s.params := rfl
@[simp] theorem advanceMode_seq : (advanceMode s).seq = s.seq := rfl
@[simp] theorem advanceMode_mode : (advanceMode s).mode = nextMode s.mode := rfl
@[simp] theorem advanceMode_btnAcc : (advanceMode s).btnAcc = s.btnAcc := rfl
@[simp] theorem advanceMode_btnCand : (advanceMode s).btnCand = s.btnCand := rfl
@[simp] theorem advanceMode_phase : (advanceMode s).phase = s.phase := rfl
@[simp] theorem advanceMode_dir : (advanceMode s).dir = s.dir := rfl
@[simp] theorem advanceMode_sub : (advanceMode s).sub = s.sub := rfl
@[simp] theorem advanceMode_head : (advanceMode s).head = 0 := rfl
@[simp] theorem advanceMode_fidx : (advanceMode s).fidx = s.fidx := rfl
@[simp] theorem advanceMode_fidxReg : (advanceMode s).fidxReg = s.fidxReg := rfl
@[simp] theorem advanceMode_dly : (advanceMode s).dly = s.dly := rfl
@[simp] theorem advanceMode_mid : (advanceMode s).mid = s.mid := rfl
@[simp] theorem advanceMode_rdQ : (advanceMode s).rdQ = s.rdQ := rfl
@[simp] theorem advanceMode_fb : (advanceMode s).fb = s.fb := rfl
@[simp] theorem advanceMode_stim : (advanceMode s).stim = s.stim := rfl
@[simp] theorem advanceMode_cycle : (advanceMode s).cycle = s.cycle := rfl

/-! Reset (R270). -/

@[simp] theorem resetRegisters_params : (resetRegisters s).params = s.params := rfl
@[simp] theorem resetRegisters_seq : (resetRegisters s).seq = seqClear := rfl
@[simp] theorem resetRegisters_mode : (resetRegisters s).mode = 0 := rfl
@[simp] theorem resetRegisters_btnAcc : (resetRegisters s).btnAcc = 0xFF := rfl
@[simp] theorem resetRegisters_btnCand : (resetRegisters s).btnCand = 0xFF := rfl
@[simp] theorem resetRegisters_phase : (resetRegisters s).phase = 0 := rfl
@[simp] theorem resetRegisters_dir : (resetRegisters s).dir = false := rfl
@[simp] theorem resetRegisters_sub : (resetRegisters s).sub = 0 := rfl
@[simp] theorem resetRegisters_head : (resetRegisters s).head = 0 := rfl
@[simp] theorem resetRegisters_fidx : (resetRegisters s).fidx = 0 := rfl
@[simp] theorem resetRegisters_dly : (resetRegisters s).dly = 0 := rfl
@[simp] theorem resetRegisters_mid : (resetRegisters s).mid = false := rfl
@[simp] theorem resetRegisters_rdQ : (resetRegisters s).rdQ = 0x00 := rfl
@[simp] theorem resetRegisters_fb : (resetRegisters s).fb = s.fb := rfl
@[simp] theorem resetRegisters_stim : (resetRegisters s).stim = s.stim := rfl
@[simp] theorem resetRegisters_cycle : (resetRegisters s).cycle = s.cycle := rfl

/-! The pixel write (R205) touches nothing but the frame buffer. -/

variable (i : Nat) (x : Pixel)

@[simp] theorem fbWrite_params : (fbWrite s i x).params = s.params := by
  unfold fbWrite; split <;> rfl
@[simp] theorem fbWrite_seq : (fbWrite s i x).seq = s.seq := by
  unfold fbWrite; split <;> rfl
@[simp] theorem fbWrite_mode : (fbWrite s i x).mode = s.mode := by
  unfold fbWrite; split <;> rfl
@[simp] theorem fbWrite_btnAcc : (fbWrite s i x).btnAcc = s.btnAcc := by
  unfold fbWrite; split <;> rfl
@[simp] theorem fbWrite_btnCand : (fbWrite s i x).btnCand = s.btnCand := by
  unfold fbWrite; split <;> rfl
@[simp] theorem fbWrite_phase : (fbWrite s i x).phase = s.phase := by
  unfold fbWrite; split <;> rfl
@[simp] theorem fbWrite_dir : (fbWrite s i x).dir = s.dir := by
  unfold fbWrite; split <;> rfl
@[simp] theorem fbWrite_sub : (fbWrite s i x).sub = s.sub := by
  unfold fbWrite; split <;> rfl
@[simp] theorem fbWrite_head : (fbWrite s i x).head = s.head := by
  unfold fbWrite; split <;> rfl
@[simp] theorem fbWrite_fidx : (fbWrite s i x).fidx = s.fidx := by
  unfold fbWrite; split <;> rfl
@[simp] theorem fbWrite_headReg : (fbWrite s i x).headReg = s.headReg := by
  unfold fbWrite; split <;> rfl
@[simp] theorem fbWrite_fidxReg : (fbWrite s i x).fidxReg = s.fidxReg := by
  unfold fbWrite; split <;> rfl
@[simp] theorem fbWrite_dly : (fbWrite s i x).dly = s.dly := by
  unfold fbWrite; split <;> rfl
@[simp] theorem fbWrite_mid : (fbWrite s i x).mid = s.mid := by
  unfold fbWrite; split <;> rfl
@[simp] theorem fbWrite_rdQ : (fbWrite s i x).rdQ = s.rdQ := by
  unfold fbWrite; split <;> rfl
theorem fbWrite_fb : (fbWrite s i x).fb = if i < s.params.n then memWritePixel s.fb i x else s.fb := by
  unfold fbWrite; split <;> rfl
@[simp] theorem fbWrite_stim : (fbWrite s i x).stim = s.stim := by
  unfold fbWrite; split <;> rfl
@[simp] theorem fbWrite_cycle : (fbWrite s i x).cycle = s.cycle := by
  unfold fbWrite; split <;> rfl

theorem fbWrite_of_lt {s : State} {i : Nat} (h : i < s.params.n) (x : Pixel) :
    fbWrite s i x = { s with fb := memWritePixel s.fb i x } := if_pos h

/-- A write outside the strip is dropped (R205). -/
theorem fbWrite_of_ge {s : State} {i : Nat} (h : s.params.n ≤ i) (x : Pixel) : fbWrite s i x = s := if_neg (by omega)

end Sys2Proof.Machine
end

