-- ==== Sys2Proof/Laws/Cycle.lean ====
section
/-! SUPPORT. What a cycle can do, said once: the register writes behind each instruction, when an instruction answers a
next state, what a step can be, and how inputs move along a run. -/

namespace Sys2Proof.Machine

/-- The register writes of an instruction in a state, for proofs that treat all instructions alike. -/
def writesOf (i : Instr) (mode : Code) : Inputs → State → State :=
  match i with
  | .breatheRed => opRender (.breathe ⟨true, false, false⟩)
  | .breatheYellow => opRender (.breathe ⟨true, true, false⟩)
  | .breatheGreen => opRender (.breathe ⟨false, true, false⟩)
  | .breatheCyan => opRender (.breathe ⟨false, true, true⟩)
  | .breatheBlue => opRender (.breathe ⟨false, false, true⟩)
  | .breathePurple => opRender (.breathe ⟨true, false, true⟩)
  | .breatheWhite => opRender (.breathe ⟨true, true, true⟩)
  | .rainbowChase => opRender .chase
  | .off _ => opRender .off
  | .clear => opClear
  | .poll => opPoll
  | .debounce => opDebounce
  | .confirm => opConfirm
  | .passInit => opPassInit
  | .fill => opFill (renderOf mode)
  | .txStart => opTxStart
  | .txWait => opTxWait (renderOf mode)
  | .delay => opDelay
  | .step => opStep (renderOf mode)
  | .unusedSeqA _ => opUnused
  | .unusedSeqC _ => opUnused

/-- Every instruction is one cycle that performs its register writes. -/
theorem exec_eq_runCycle (i : Instr) (s : State) : exec i s = runCycle (writesOf i s.mode) s := by
  cases i <;> rfl

/-- With legal parameters a cycle completes. -/
theorem runCycle_of_legal (op : Inputs → State → State) {s : State} (h : s.params.legal = true) :
    runCycle op s = .next (op (inputsNow s) (passCycle s)) := if_pos h

/-- With an illegal configuration a cycle is refused (R8). -/
theorem runCycle_of_illegal (op : Inputs → State → State) {s : State} (h : s.params.legal = false) :
    runCycle op s = .refused .illegalParameters := if_neg (by simp [h])

/-- When a cycle answers a next state, the parameters are legal and the state is the operation's. -/
theorem runCycle_next {op : Inputs → State → State} {s t : State} (h : runCycle op s = .next t) :
    s.params.legal = true ∧ t = op (inputsNow s) (passCycle s) := by
  unfold runCycle at h
  split at h
  · exact ⟨‹_›, by injection h with h; exact h.symm⟩
  · cases h

/-- With legal parameters an instruction completes with its register writes. -/
theorem exec_of_legal (i : Instr) {s : State} (h : s.params.legal = true) :
    exec i s = .next (writesOf i s.mode (inputsNow s) (passCycle s)) := by
  rw [exec_eq_runCycle, runCycle_of_legal _ h]

/-- What a step can be: a reset cycle, or the writes of the operation `seq` names. -/
theorem step_cases {s t : State} (h : step s = .next t) :
    s.params.legal = true ∧
      (((inputsNow s).rst = true ∧ t = resetRegisters (passCycle s)) ∨
       ((inputsNow s).rst = false ∧ t = writesOf (decodeSeq s.seq) s.mode (inputsNow s) (passCycle s))) := by
  unfold step at h
  split at h
  · obtain ⟨hl, ht⟩ := runCycle_next h
    exact ⟨hl, .inl ⟨‹_›, ht⟩⟩
  · rename_i hr
    rw [exec_eq_runCycle] at h
    obtain ⟨hl, ht⟩ := runCycle_next h
    exact ⟨hl, .inr ⟨by simpa using hr, ht⟩⟩

/-- A legal step without reset. -/
theorem step_of_legal {s : State} (h : s.params.legal = true) (hr : (inputsNow s).rst = false) :
    step s = .next (writesOf (decodeSeq s.seq) s.mode (inputsNow s) (passCycle s)) := by
  unfold step fetch
  rw [hr, if_neg (by simp), exec_of_legal _ h]

/-! The sequencer's operations write neither the parameters nor the model's own time. -/

theorem opWait_time (after : Code) (inp : Inputs) (s : State) :
    (opWait after inp s).params = s.params ∧ (opWait after inp s).stim = s.stim ∧ (opWait after inp s).cycle = s.cycle := by
  unfold opWait; split_ifs <;> exact ⟨rfl, rfl, rfl⟩

theorem fillStrip_time (x : Pixel) (s : State) :
    (fillStrip x s).params = s.params ∧ (fillStrip x s).stim = s.stim ∧ (fillStrip x s).cycle = s.cycle := by
  unfold fillStrip; split <;> simp

theorem opFill_time (r : Render) (inp : Inputs) (s : State) :
    (opFill r inp s).params = s.params ∧ (opFill r inp s).stim = s.stim ∧ (opFill r inp s).cycle = s.cycle := by
  cases r
  · exact fillStrip_time _ s
  · simp [opFill, fillHead]
  · exact fillStrip_time _ s

theorem opClear_time (inp : Inputs) (s : State) :
    (opClear inp s).params = s.params ∧ (opClear inp s).stim = s.stim ∧ (opClear inp s).cycle = s.cycle := by
  unfold opClear; split <;> simp

theorem opPoll_time (inp : Inputs) (s : State) :
    (opPoll inp s).params = s.params ∧ (opPoll inp s).stim = s.stim ∧ (opPoll inp s).cycle = s.cycle := by
  unfold opPoll; split <;> exact ⟨rfl, rfl, rfl⟩

theorem opConfirm_time (inp : Inputs) (s : State) :
    (opConfirm inp s).params = s.params ∧ (opConfirm inp s).stim = s.stim ∧ (opConfirm inp s).cycle = s.cycle := by
  unfold opConfirm; split <;> exact ⟨rfl, rfl, rfl⟩

theorem opTxWait_time (r : Render) (inp : Inputs) (s : State) :
    (opTxWait r inp s).params = s.params ∧ (opTxWait r inp s).stim = s.stim ∧ (opTxWait r inp s).cycle = s.cycle := by
  unfold opTxWait; cases r <;> simp only [frameDelay] <;> split <;> exact ⟨rfl, rfl, rfl⟩

theorem endStep_time (done : Bool) (s : State) :
    (endStep done s).params = s.params ∧ (endStep done s).stim = s.stim ∧ (endStep done s).cycle = s.cycle := by
  unfold endStep; split_ifs <;> exact ⟨rfl, rfl, rfl⟩

theorem opStep_time (r : Render) (inp : Inputs) (s : State) :
    (opStep r inp s).params = s.params ∧ (opStep r inp s).stim = s.stim ∧ (opStep r inp s).cycle = s.cycle := by
  cases r <;> exact endStep_time _ _

theorem opRender_time (r : Render) (inp : Inputs) (s : State) :
    (opRender r inp s).params = s.params ∧ (opRender r inp s).stim = s.stim ∧ (opRender r inp s).cycle = s.cycle := by
  unfold opRender
  split
  · exact opClear_time inp s
  · exact opPoll_time inp s
  · exact opWait_time _ inp s
  · exact opConfirm_time inp s
  · exact ⟨rfl, rfl, rfl⟩
  · exact opFill_time r inp s
  · exact ⟨rfl, rfl, rfl⟩
  · exact opTxWait_time r inp s
  · exact opWait_time _ inp s
  · exact opStep_time r inp s
  · exact ⟨rfl, rfl, rfl⟩

theorem writesOf_time (i : Instr) (m : Code) (inp : Inputs) (s : State) :
    (writesOf i m inp s).params = s.params ∧ (writesOf i m inp s).stim = s.stim ∧ (writesOf i m inp s).cycle = s.cycle := by
  cases i
  case clear => exact opClear_time inp s
  case poll => exact opPoll_time inp s
  case debounce => exact opWait_time _ inp s
  case confirm => exact opConfirm_time inp s
  case fill => exact opFill_time _ inp s
  case txWait => exact opTxWait_time _ inp s
  case delay => exact opWait_time _ inp s
  case step => exact opStep_time _ inp s
  case passInit => exact ⟨rfl, rfl, rfl⟩
  case txStart => exact ⟨rfl, rfl, rfl⟩
  case unusedSeqA => exact ⟨rfl, rfl, rfl⟩
  case unusedSeqC => exact ⟨rfl, rfl, rfl⟩
  all_goals exact opRender_time _ inp s

/-- Time after a step: the stimulus has moved on by one cycle. -/
theorem step_time {s t : State} (h : step s = .next t) :
    t.params = s.params ∧ t.stim = s.stim.tail ∧ t.cycle = s.cycle + 1 := by
  obtain ⟨-, ⟨-, rfl⟩ | ⟨-, rfl⟩⟩ := step_cases h
  · exact ⟨rfl, rfl, rfl⟩
  · exact writesOf_time _ _ _ _

/-- The inputs of a later cycle do not depend on when they are asked for. -/
theorem inputsAt_after_step {s t : State} (h : step s = .next t) (k : Nat) : inputsAt t k = inputsAt s (k + 1) := by
  obtain ⟨-, hstim, hcycle⟩ := step_time h
  unfold inputsAt
  rw [hstim, hcycle, show s.cycle + 1 + k = s.cycle + (k + 1) by omega]
  cases s.stim <;> simp

/-! Runs. -/

@[simp] theorem runCycles_zero (s : State) : runCycles 0 s = .next s := rfl

theorem runCycles_succ {s t : State} (h : step s = .next t) (k : Nat) : runCycles (k + 1) s = runCycles k t := by
  simp [runCycles, h]

theorem noReset_succ (s : State) (k : Nat) :
    noReset s (k + 1) = true ↔ (inputsNow s).rst = false ∧ ∀ j < k, (inputsAt s (j + 1)).rst = false := by
  simp only [noReset, List.all_eq_true, List.mem_range, inputsNow, Bool.not_eq_true']
  exact ⟨fun h => ⟨h 0 (by omega), fun j hj => h (j + 1) (by omega)⟩,
    fun h j hj => by cases j with
      | zero => exact h.1
      | succ j => exact h.2 j (by omega)⟩

/-- After a step, a run without reset is one cycle shorter. -/
theorem noReset_after_step {s t : State} (h : step s = .next t) {k : Nat} (hr : noReset s (k + 1) = true) :
    noReset t k = true := by
  simp only [noReset, List.all_eq_true, List.mem_range, Bool.not_eq_true', inputsAt_after_step h]
  exact ((noReset_succ s k).1 hr).2

end Sys2Proof.Machine
end

