-- ==== Sys2Proof/Laws/Memory.lean ====
section
/-! SUPPORT. The laws of the frame buffer's cells: a read after a write, what a write leaves alone, the canonical form,
and the pixel view over the byte view (spec/20_memory.md R61). -/

namespace Sys2Proof.Machine

@[simp] theorem memRead_memWrite_same (m : Memory) (a : Nat) (v : Byte) : memRead (memWrite m a v) a = some v := by
  induction m with
  | nil => simp [memWrite, memRead]
  | cons c rest ih =>
    unfold memWrite
    split
    · simp [memRead]
    · split
      · simp [memRead]
      · rename_i h
        rw [memRead, if_neg (fun e => h e.symm), ih]

theorem memRead_memWrite_other (m : Memory) {a b : Nat} (v : Byte) (h : a ≠ b) :
    memRead (memWrite m a v) b = memRead m b := by
  induction m with
  | nil => simp [memWrite, memRead, h]
  | cons c rest ih =>
    unfold memWrite
    split
    · simp [memRead, h]
    · split
      · rename_i e
        simp [memRead, h, ← e]
      · simp only [memRead, ih]

/-- A cell of a written memory is the written one or an old one. -/
theorem mem_memWrite {m : Memory} {a : Nat} {v : Byte} {c : Host.Cell} (h : c ∈ memWrite m a v) :
    c = (a, v) ∨ c ∈ m := by
  induction m with
  | nil => simpa [memWrite] using h
  | cons d rest ih =>
    unfold memWrite at h
    split at h
    · simpa using h
    · split at h
      · rcases List.mem_cons.1 h with h | h
        · exact .inl h
        · exact .inr (List.mem_cons_of_mem _ h)
      · rcases List.mem_cons.1 h with h | h
        · exact .inr (h ▸ List.mem_cons_self)
        · exact (ih h).imp_right (List.mem_cons_of_mem _)

/-- A write keeps the canonical form. -/
theorem memWrite_keeps_wf {m : Memory} (h : Memory.wf m = true) (a : Nat) (v : Byte) : Memory.wf (memWrite m a v) = true := by
  induction m with
  | nil => simp [memWrite, Memory.wf]
  | cons c rest ih =>
    simp only [Memory.wf, Bool.and_eq_true, List.all_eq_true, decide_eq_true_eq] at h
    obtain ⟨hc, hrest⟩ := h
    unfold memWrite
    split
    · rename_i hlt
      simp only [Memory.wf, Bool.and_eq_true, List.all_eq_true, decide_eq_true_eq, List.mem_cons, forall_eq_or_imp]
      exact ⟨⟨hlt, fun d hd => hlt.trans (hc d hd)⟩, hc, hrest⟩
    · split
      · rename_i e
        simp only [Memory.wf, Bool.and_eq_true, List.all_eq_true, decide_eq_true_eq]
        exact ⟨e ▸ hc, hrest⟩
      · simp only [Memory.wf, Bool.and_eq_true, List.all_eq_true, decide_eq_true_eq]
        refine ⟨fun d hd => ?_, ih hrest⟩
        rcases mem_memWrite hd with rfl | hd
        · show c.1 < a
          omega
        · exact hc d hd

/-- A pixel write keeps the canonical form. -/
theorem memWritePixel_keeps_wf {m : Memory} (h : Memory.wf m = true) (i : Nat) (x : Pixel) :
    Memory.wf (memWritePixel m i x) = true :=
  memWrite_keeps_wf (memWrite_keeps_wf (memWrite_keeps_wf h _ _) _ _) _ _

/-- A cell of a memory after a pixel write is an old one or one of the pixel's three. -/
theorem mem_memWritePixel {m : Memory} {i : Nat} {x : Pixel} {c : Host.Cell} (h : c ∈ memWritePixel m i x) :
    c = (3 * i, x.g) ∨ c = (3 * i + 1, x.r) ∨ c = (3 * i + 2, x.b) ∨ c ∈ m := by
  rcases mem_memWrite h with h | h
  · exact .inr (.inr (.inl h))
  · rcases mem_memWrite h with h | h
    · exact .inr (.inl h)
    · exact (mem_memWrite h).imp_right (fun h => .inr (.inr h))

/-- What each byte reads as after a pixel write: green, red and blue of the pixel, and every other byte as before (R61). -/
theorem memRead_memWritePixel (m : Memory) (i : Nat) (x : Pixel) (a : Nat) :
    memRead (memWritePixel m i x) a =
      if a = 3 * i then some x.g else if a = 3 * i + 1 then some x.r else if a = 3 * i + 2 then some x.b
      else memRead m a := by
  unfold memWritePixel
  by_cases h2 : a = 3 * i + 2
  · subst h2; simp
  rw [memRead_memWrite_other _ _ (Ne.symm h2)]
  by_cases h1 : a = 3 * i + 1
  · subst h1; simp
  rw [memRead_memWrite_other _ _ (Ne.symm h1)]
  by_cases h0 : a = 3 * i
  · subst h0; simp
  rw [memRead_memWrite_other _ _ (Ne.symm h0), if_neg h0, if_neg h1, if_neg h2]

@[simp] theorem memPixel_memWritePixel_same (m : Memory) (i : Nat) (x : Pixel) : memPixel (memWritePixel m i x) i = x := by
  simp [memPixel, memByte, memRead_memWritePixel]

theorem memPixel_memWritePixel_other (m : Memory) {i j : Nat} (x : Pixel) (h : i ≠ j) :
    memPixel (memWritePixel m i x) j = memPixel m j := by
  have e : ∀ k, k < 3 → memRead (memWritePixel m i x) (3 * j + k) = memRead m (3 * j + k) := by
    intro k hk
    rw [memRead_memWritePixel, if_neg (by omega), if_neg (by omega), if_neg (by omega)]
  simp only [memPixel, memByte]
  rw [e 1 (by omega), e 2 (by omega), show 3 * j = 3 * j + 0 from rfl, e 0 (by omega)]

/-- A write un-lists nothing. -/
theorem memRead_memWritePixel_isSome {m : Memory} {a : Nat} (h : (memRead m a).isSome = true) (i : Nat) (x : Pixel) :
    (memRead (memWritePixel m i x) a).isSome = true := by
  rw [memRead_memWritePixel]
  split_ifs <;> simp_all

/-- The memory after reset has the canonical form. -/
theorem reset_memory_wf : Memory.wf State.reset.fb = true := rfl

end Sys2Proof.Machine
end

