-- ==== Sys2Proof/Laws/PerInstr.lean ====
section
/-! SUPPORT. Per-instruction laws. `InTable`: the code an instruction encodes to belongs to exactly one row of the opcode
table in its format, and that row bears the instruction's mnemonic (spec/30_encoding.md R91, R96). -/

namespace Sys2Proof.Laws.InTable

/-- Exactly one row of the instruction's format takes its code, and it is the instruction's own. -/
@[reducible] def Statement (i : Instr) : Prop := (rowsOf i.format (encode i)).map (fun row => row.mnemonic) = [i.mnemonic]

theorem breatheRed : Statement .breatheRed := by decide
theorem breatheYellow : Statement .breatheYellow := by decide
theorem breatheGreen : Statement .breatheGreen := by decide
theorem breatheCyan : Statement .breatheCyan := by decide
theorem breatheBlue : Statement .breatheBlue := by decide
theorem breathePurple : Statement .breathePurple := by decide
theorem breatheWhite : Statement .breatheWhite := by decide
theorem rainbowChase : Statement .rainbowChase := by decide
theorem off (x : BitVec 3) : Statement (.off x) := by revert x; decide
theorem clear : Statement .clear := by decide
theorem poll : Statement .poll := by decide
theorem debounce : Statement .debounce := by decide
theorem confirm : Statement .confirm := by decide
theorem passInit : Statement .passInit := by decide
theorem fill : Statement .fill := by decide
theorem txStart : Statement .txStart := by decide
theorem txWait : Statement .txWait := by decide
theorem delay : Statement .delay := by decide
theorem step : Statement .step := by decide
theorem unusedSeqA (x : BitVec 1) : Statement (.unusedSeqA x) := by revert x; decide
theorem unusedSeqC (x : BitVec 2) : Statement (.unusedSeqC x) := by revert x; decide

end Sys2Proof.Laws.InTable
end

