-- ==== Sys2Proof/Laws/Sequencer.lean ====
section
/-! SUPPORT. The shared operations of the sequencer, each said once: which render operation a mode code is, which operation
a state code is, the phase steps as register writes, the two waits, and what a fill does to the frame buffer. -/

namespace Sys2Proof.Machine

/-- A mode code is a breathe hue, the chase or the off fallback (R92). -/
theorem renderOf_cases (m : Code) :
    (m.toNat ≤ 6 ∧ m ≠ 7 ∧ renderOf m = .breathe (hueMask m)) ∨ (m = 7 ∧ renderOf m = .chase) ∨
      (8 ≤ m.toNat ∧ m ≠ 7 ∧ renderOf m = .off) := by
  revert m; decide

/-- A state code is one of the ten, or unused (R96). -/
theorem seqStateOf_cases (c : Code) :
    (c = 0 ∧ seqStateOf c = .clear) ∨ (c = 1 ∧ seqStateOf c = .poll) ∨ (c = 2 ∧ seqStateOf c = .debounce) ∨
      (c = 3 ∧ seqStateOf c = .confirm) ∨ (c = 4 ∧ seqStateOf c = .passInit) ∨ (c = 5 ∧ seqStateOf c = .fill) ∨
      (c = 6 ∧ seqStateOf c = .txStart) ∨ (c = 7 ∧ seqStateOf c = .txWait) ∨ (c = 8 ∧ seqStateOf c = .delay) ∨
      (c = 9 ∧ seqStateOf c = .step) ∨ (10 ≤ c.toNat ∧ seqStateOf c = .unused) := by
  revert c; decide

theorem byte_toNat_eq_zero (v : Byte) : v.toNat = 0 ↔ v = 0 :=
  ⟨fun h => BitVec.eq_of_toNat_eq (by simpa using h), fun h => h ▸ rfl⟩

theorem index_toNat_ofNat {x : Nat} (h : x < 65536) : (BitVec.ofNat 16 x).toNat = x := by
  simp; omega

/-- `STEP` in a breathe mode, as register writes (R169, R209). -/
theorem opStep_breathe (mask : HueMask) (inp : Inputs) (s : State) :
    opStep (.breathe mask) inp s =
      if s.dir = false then
        if s.phase.toNat ≥ s.params.maxB then
          endStep false { s with dir := true, phase := BitVec.ofNat 8 (s.params.maxB - 1) }
        else endStep false { s with phase := BitVec.ofNat 8 (s.phase.toNat + 1) }
      else if s.phase = 0 then endStep true s
      else endStep false { s with phase := BitVec.ofNat 8 (s.phase.toNat - 1) } := by
  rcases s with ⟨p, seq, mode, acc, cand, phase, dir, sub, head, fidx, dly, mid, rdq, fb, stim, cyc⟩
  simp only [opStep, breatheStep, byte_toNat_eq_zero]
  cases dir
  · by_cases h : phase.toNat ≥ p.maxB
    · simp only [if_pos h]; rfl
    · simp only [if_neg h]; rfl
  · by_cases h : phase = 0
    · subst h; rfl
    · simp only [if_neg h]; rfl

/-- `STEP` in the chase, as register writes (R172, R209). -/
theorem opStep_chase (inp : Inputs) (s : State) :
    opStep .chase inp s =
      if s.phase.toNat ≥ s.params.maxB - 1 then
        if s.sub.toNat ≥ 5 then endStep true { s with phase := 0, sub := 0, head := nextHead s.params s.headReg }
        else
          endStep false
            { s with phase := 0, sub := BitVec.ofNat 3 (s.sub.toNat + 1), head := nextHead s.params s.headReg }
      else endStep false { s with phase := BitVec.ofNat 8 (s.phase.toNat + 1), head := nextHead s.params s.headReg } := by
  rcases s with ⟨p, seq, mode, acc, cand, phase, dir, sub, head, fidx, dly, mid, rdq, fb, stim, cyc⟩
  simp only [opStep, chaseStep]
  by_cases h : phase.toNat ≥ p.maxB - 1
  · by_cases h5 : sub.toNat ≥ 5
    · simp only [if_pos h, if_pos h5]
    · simp only [if_pos h, if_neg h5]
  · simp only [if_neg h]

/-- A wait without a tick changes nothing (R122, R208). -/
theorem opWait_of_no_tick (after : Code) {inp : Inputs} (h : inp.tick = false) (s : State) : opWait after inp s = s := by
  simp [opWait, h]

/-- What a pixel write can do to the frame buffer. -/
theorem fbWrite_cases (s : State) (i : Nat) (x : Pixel) :
    (fbWrite s i x).fb = s.fb ∨ (i < s.params.n ∧ (fbWrite s i x).fb = memWritePixel s.fb i x) := by
  rw [fbWrite_fb]
  split
  · exact .inr ⟨‹_›, rfl⟩
  · exact .inl rfl

/-- A full-strip fill writes at most the pixel at `fidx` (R203). -/
theorem fillStrip_fb (x : Pixel) (s : State) : (fillStrip x s).fb = (fbWrite s s.fidxReg.toNat x).fb := by
  unfold fillStrip; split <;> rfl

/-- `CLEAR` writes at most the pixel at `fidx` (R201). -/
theorem opClear_fb (inp : Inputs) (s : State) : (opClear inp s).fb = (fbWrite s s.fidxReg.toNat Pixel.black).fb := by
  unfold opClear; split <;> rfl

/-- The other operations leave the frame buffer alone (R72, R205). -/
theorem opRender_fb_of_not_fill (r : Render) (inp : Inputs) {s : State} (h0 : s.seq ≠ 0) (h5 : s.seq ≠ 5) :
    (opRender r inp s).fb = s.fb := by
  unfold opRender
  rcases seqStateOf_cases s.seq with ⟨e, q⟩ | ⟨_, q⟩ | ⟨_, q⟩ | ⟨_, q⟩ | ⟨_, q⟩ | ⟨e, q⟩ | ⟨_, q⟩ | ⟨_, q⟩ | ⟨_, q⟩ |
    ⟨_, q⟩ | ⟨_, q⟩ <;> simp only [q]
  · exact absurd e h0
  · unfold opPoll; split <;> rfl
  · unfold opDebounce opWait; split_ifs <;> rfl
  · unfold opConfirm; split <;> rfl
  · rfl
  · exact absurd e h5
  · rfl
  · unfold opTxWait; cases r <;> simp only [frameDelay] <;> split <;> rfl
  · unfold opDelay opWait; split_ifs <;> rfl
  · cases r <;> simp only [opStep, endStep] <;> split_ifs <;> rfl
  · rfl

/-- The chase head's next index stays on the strip (R172). -/
theorem nextHead_lt {p : Params} (hn : 1 ≤ p.n ∧ p.n ≤ 65535) (head : Index) : (nextHead p head).toNat < p.n := by
  unfold nextHead
  split
  · simp; omega
  · rw [index_toNat_ofNat (by omega)]; omega

/-- A clamped channel is at most the ceiling (R176). -/
theorem clampChannel_le (p : Params) (v : Byte) : (clampChannel p v).toNat ≤ p.maxB := by
  unfold clampChannel
  simpa using (Nat.mod_le _ _).trans (min_le_right v.toNat p.maxB)

end Sys2Proof.Machine
end

