-- ==== Sys2Proof/Laws/Widths.lean ====
section
/-! SUPPORT. The derived widths at the registers and ports: what `fitIndex` keeps, and that it keeps all of a register whose
stored bits are within its width. -/

namespace Sys2Proof.Machine

/-- The bits kept are a value below the register's size. -/
theorem fitIndex_toNat (p : Params) (v : Index) : (fitIndex p v).toNat = v.toNat % 2 ^ p.idxW := by
  have := (Nat.mod_le v.toNat (2 ^ p.idxW)).trans_lt v.isLt
  simpa [fitIndex] using this

theorem fitIndex_lt (p : Params) (v : Index) : (fitIndex p v).toNat < 2 ^ p.idxW := by
  rw [fitIndex_toNat]; exact Nat.mod_lt _ (by positivity)

/-- A value within the width is kept whole. -/
theorem fitIndex_of_lt {p : Params} {v : Index} (h : v.toNat < 2 ^ p.idxW) : fitIndex p v = v :=
  BitVec.eq_of_toNat_eq (by rw [fitIndex_toNat, Nat.mod_eq_of_lt h])

/-- A pixel index of the strip is within the width. -/
theorem fitIndex_of_lt_n {p : Params} {v : Index} (h : v.toNat < p.n) : fitIndex p v = v :=
  fitIndex_of_lt (h.trans_le (le_two_pow_idxW p))

@[simp] theorem fitIndex_zero (p : Params) : fitIndex p 0 = 0 := fitIndex_of_lt (by simp)

theorem headReg_toNat (s : State) : s.headReg.toNat = s.head.toNat % 2 ^ s.params.idxW := fitIndex_toNat _ _

theorem fidxReg_toNat (s : State) : s.fidxReg.toNat = s.fidx.toNat % 2 ^ s.params.idxW := fitIndex_toNat _ _

theorem headReg_of_widthsOk {s : State} (h : s.widthsOk) : s.headReg = s.head := fitIndex_of_lt h.1

theorem fidxReg_of_widthsOk {s : State} (h : s.widthsOk) : s.fidxReg = s.fidx := fitIndex_of_lt h.2

theorem fidxReg_of_zero {s : State} (h : s.fidx = 0) : s.fidxReg = 0 := by rw [State.fidxReg, h, fitIndex_zero]

/-- The frame's length reaches the transmitter whole (R35). -/
@[simp] theorem txLenOut_toNat (s : State) : (txLenOut s).toNat = 3 * s.params.n := by
  simpa [txLenOut] using Nat.mod_eq_of_lt (frame_length_lt s.params)

end Sys2Proof.Machine
end

