-- ==== Sys2Proof/Machine/Script.lean ====
section
/-! DEFINITION. The stimulus script of spec/30_encoding.md R99 and R100: commands that drive the input ports, and
expectations. It is the spec's notation for what it calls a program; nothing in the engine reads it (D29). -/

namespace Sys2Proof.Machine

/-- A register or a pixel with a value: what `start` sets and `expect` compares (R99). -/
inductive Setting where
  | seq (v : Code)
  | mode (v : Code)
  | btnAcc (v : Byte)
  | btnCand (v : Byte)
  | phase (v : Byte)
  | dir (v : Bool)
  | sub (v : BitVec 3)
  | head (v : Index)
  | fidx (v : Index)
  | dly (v : Byte)
  | mid (v : Bool)
  | rdQ (v : Byte)
  | fb (i : Nat) (rgb : BitVec 24)
  deriving DecidableEq, Repr

/-- The state with the setting made. -/
def applySetting (s : State) : Setting → State
  | .seq v => { s with seq := v }
  | .mode v => { s with mode := v }
  | .btnAcc v => { s with btnAcc := v }
  | .btnCand v => { s with btnCand := v }
  | .phase v => { s with phase := v }
  | .dir v => { s with dir := v }
  | .sub v => { s with sub := v }
  | .head v => { s with head := v }
  | .fidx v => { s with fidx := v }
  | .dly v => { s with dly := v }
  | .mid v => { s with mid := v }
  | .rdQ v => { s with rdQ := v }
  | .fb i rgb => fbWrite s i (pixelUnpack rgb)

/-- Whether the state has the value. -/
def settingHolds (s : State) : Setting → Bool
  | .seq v => s.seq = v
  | .mode v => s.mode = v
  | .btnAcc v => s.btnAcc = v
  | .btnCand v => s.btnCand = v
  | .phase v => s.phase = v
  | .dir v => s.dir = v
  | .sub v => s.sub = v
  | .head v => s.headReg = v
  | .fidx v => s.fidxReg = v
  | .dly v => s.dly = v
  | .mid v => s.mid = v
  | .rdQ v => s.rdQ = v
  | .fb i rgb => memPixel s.fb i = pixelUnpack rgb

/-- The commands of R99. -/
inductive Command where
  | reset
  | start (settings : List Setting)
  | btn (v : Byte)
  | tickEvery (k : Nat)
  | txdoneAfter (d : Nat)
  | runFrames (n : Nat)
  | runPasses (n : Nat)
  | runCycles (n : Nat)
  | expect (x : Setting)
  | expectFrames (frames : List (List (BitVec 24)))
  deriving DecidableEq, Repr

/-- `press v` (R100). -/
def pressCommand (v : Byte) : List Command := [.btn v]

/-- `release` and `idle` (R100). -/
def releaseCommand : List Command := [.btn btnIdle]

/-- `fast` (R100). -/
def fastCommand : List Command := [.tickEvery 1, .txdoneAfter 1]

/-- The engine with the drivers of its ports. A period or a distance of 0 stands for "not given yet": no strobe. -/
structure Bench where
  state : State
  btn : Byte
  tickPeriod : Nat
  txDistance : Nat
  /-- the cycles in which `tx_done` is due -/
  txDue : List Nat
  /-- the number of the script's current cycle, `c0` the first (spec/95_test_vectors.md, conventions) -/
  clock : Nat
  /-- how often `seq` has entered `POLL` -/
  polls : Nat
  /-- the frame events so far, newest first -/
  events : List FrameEvent
  /-- no expectation has failed, no cycle was refused and no `run` command was cut short -/
  good : Bool
  deriving DecidableEq, Repr

/-- The bench at power-up (R271). DESIGN CHOICE: the grammar of R99 does not say what a port carries before the first command
that drives it; here `btn_in` is idle, 0xFF, and `tick` and `tx_done` are 0 (assumption 11). -/
def benchOf (p : Params) : Bench where
  state := State.powerUp p
  btn := btnIdle
  tickPeriod := 0
  txDistance := 0
  txDue := []
  clock := 0
  polls := 0
  events := []
  good := true

/-- The port values the script drives in the current cycle; the read port is not in the script's grammar, and is held at 0. -/
def benchInputs (b : Bench) (rst : Bool) : Inputs where
  rst := rst
  tick := b.tickPeriod ≠ 0 && b.clock % b.tickPeriod = 0
  btn := b.btn
  txDone := b.txDue.contains b.clock
  fbRdAddr := 0

/-- One cycle of the engine under the bench's drivers. -/
def benchCycle (rst : Bool) (b : Bench) : Bench :=
  let s := { b.state with stim := [benchInputs b rst] }
  let seen := { b with
    events := match frameEvent s with
      | some e => e :: b.events
      | none => b.events
    txDue := if txStartOut s && b.txDistance ≠ 0 then (b.clock + b.txDistance) :: b.txDue else b.txDue
    clock := b.clock + 1 }
  match step s with
  | .next t =>
    { seen with state := t, polls := if s.seq ≠ seqPoll && t.seq = seqPoll then b.polls + 1 else b.polls }
  | .fault _ => { seen with good := false }
  | .refused _ => { seen with good := false }

/-- Cycles until a condition holds, at most `fuel` of them. -/
def benchUntil (stop : Bench → Bool) : Nat → Bench → Bench
  | 0, b => b
  | fuel + 1, b => if stop b then b else benchUntil stop fuel (benchCycle false b)

/-- A `run` command: cycles until its condition holds. DESIGN CHOICE: the grammar of R99 does not say what becomes of a script
whose run never meets its condition; here the run is cut short at `fuel` cycles, the next command goes on from there, and
the bench is no longer good (assumption 11). -/
def benchRun (stop : Bench → Bool) (fuel : Nat) (b : Bench) : Bench :=
  let c := benchUntil stop fuel b
  { c with good := c.good && stop c }

/-- The start state of a `start` command: registers not named take their reset values, pixels not named are dark, and
`seq` is `POLL` unless named (R99). Its cycle number is 0; the `start` command gives it the bench's (`startBench`). -/
def startState (p : Params) (settings : List Setting) : State :=
  let dark := (List.range p.n).foldl (fun s i => fbWrite s i Pixel.black) (State.resetOf p)
  settings.foldl applySetting { dark with seq := seqPoll }

/-- A `start` command. DESIGN CHOICE: the grammar of R99 does not say what becomes of the cycle number that frame events
record; here the count of cycles goes on, in the state as in the bench, and the drivers and the events so far stay
(assumption 11). -/
def startBench (b : Bench) (settings : List Setting) : Bench :=
  { b with state := { startState b.state.params settings with cycle := b.state.cycle } }

/-- One command; a `run` command runs at most `fuel` cycles (R99). -/
def runCommand (fuel : Nat) (b : Bench) : Command → Bench
  | .reset => benchCycle true b
  | .start settings => startBench b settings
  | .btn v => { b with btn := v }
  | .tickEvery k => { b with tickPeriod := k }
  | .txdoneAfter d => { b with txDistance := d }
  | .runFrames n =>
    benchRun (fun c => c.events.length ≥ b.events.length + n && (c.state.seq = seqPoll || c.state.seq = seqFill)) fuel b
  | .runPasses n => benchRun (fun c => c.polls ≥ b.polls + n) fuel b
  | .runCycles n => benchRun (fun c => c.clock ≥ b.clock + n) n b
  | .expect x => { b with good := b.good && settingHolds b.state x }
  | .expectFrames frames =>
    { b with good := b.good && (b.events.reverse.map (fun e => e.snapshot.map pixelPack)) = frames }

/-- A whole script, after its config line. -/
def runScript (p : Params) (fuel : Nat) (script : List Command) : Bench := script.foldl (runCommand fuel) (benchOf p)

end Sys2Proof.Machine
end

