-- ==== Sys2Proof/Tests/Slice0.lean ====
section
/-! SUPPORT. The model's own tests. Expected results are spec/95_test_vectors.md's (the vector is named in each comment) or
the spec's encodings written out. The second part holds a witness for every statement that has hypotheses. -/

namespace Sys2Proof.Tests

open Sys2Proof.Machine

/-- Reads something off the next state of an outcome. -/
def after {α : Type} (o : Host.Outcome State Fault Refusal) (f : State → α) : Option α :=
  match o with
  | .next s => some (f s)
  | .fault _ => none
  | .refused _ => none

/-- Parameters with a strip length and a ceiling, the rest as R8's defaults. -/
def params (n maxB : Nat) : Params := { Params.scenario with n := n, maxB := maxB }

/-- A state in sequencer state `seq`, all else as after reset, with one quiet cycle scripted. -/
def at' (p : Params) (seq : Code) : State := { State.resetOf p with seq := seq, stim := [Inputs.quiet p] }

/-- The inputs of this cycle changed. -/
def drive (f : Inputs → Inputs) (s : State) : State := withInputs s (f (inputsNow s))

/-! ## Well-formedness: an ill-formed term for each check (R8, D26) -/

theorem test_wf_scenario : Params.scenario.legal = true := by decide
theorem test_wf_strip_empty : (params 0 50).legal = false := by decide
theorem test_wf_strip_long : (params 65536 50).legal = false := by decide
theorem test_wf_strip_longest : (params 65535 50).legal = true := by decide
theorem test_wf_ceiling_zero : (params 6 0).legal = false := by decide
theorem test_wf_ceiling_high : (params 6 256).legal = false := by decide
theorem test_wf_debounce_zero : ({ params 6 50 with debounceTicks := 0 }).legal = false := by decide
theorem test_wf_breathe_delay_high : ({ params 6 50 with breatheDly := 256 }).legal = false := by decide
theorem test_wf_chase_delay_zero : ({ params 6 50 with chaseDly := 0 }).legal = false := by decide
theorem test_wf_address_wide : ({ Inputs.quiet (params 2 1) with fbRdAddr := 8 }).wellFormed (params 2 1) = false := by decide
theorem test_wf_address_quiet : (Inputs.quiet (params 2 1)).wellFormed (params 2 1) = true := by decide
/-- N = 2: `ADDR_W = 3` (2.9); N = 5: `IDX_W = 3`, N = 4: `IDX_W = 2` (2.6). -/
theorem test_derived_widths : ((params 2 1).addrW, (params 5 1).idxW, (params 4 1).idxW, (params 1 1).idxW) = (3, 3, 2, 1) := by
  decide
/-- R8: "derived, 18 for N = 65535", and the widths of the largest strip. -/
theorem test_widths_of_the_largest_strip :
    ((params 65535 1).lenW, (params 65535 1).idxW, (params 65535 1).addrW, (params 6 1).lenW) = (18, 16, 18, 5) := by decide
/-- R8: with N = 5 the index registers have 3 bits, so no operation sees a bit above bit 2. -/
theorem test_index_register_width :
    { at' (params 5 2) 5 with head := 9 }.headReg = 1 ∧ { at' (params 5 2) 5 with head := 6 }.headReg = 6 := by decide
/-- R35: 18 bytes for 6 pixels. -/
theorem test_tx_len : (txLenOut (at' (params 6 50) 6)).toNat = 18 := by decide

/-! ## Decoding: codes written out from R91 and R96 -/

theorem test_decode_breathe_red : decodeMode 0b0000 = .breatheRed := by decide
theorem test_decode_breathe_yellow : decodeMode 0b0001 = .breatheYellow := by decide
theorem test_decode_breathe_green : decodeMode 0b0010 = .breatheGreen := by decide
theorem test_decode_breathe_cyan : decodeMode 0b0011 = .breatheCyan := by decide
theorem test_decode_breathe_blue : decodeMode 0b0100 = .breatheBlue := by decide
theorem test_decode_breathe_purple : decodeMode 0b0101 = .breathePurple := by decide
theorem test_decode_breathe_white : decodeMode 0b0110 = .breatheWhite := by decide
theorem test_decode_rainbow_chase : decodeMode 0b0111 = .rainbowChase := by decide
theorem test_decode_off : decodeMode 0b1101 = .off 0b101 := by decide
theorem test_decode_clear : decodeTableWord 8 0x0 = some .clear := by decide
theorem test_decode_poll : decodeTableWord 8 0x1 = some .poll := by decide
theorem test_decode_debounce : decodeTableWord 8 0x2 = some .debounce := by decide
theorem test_decode_confirm : decodeTableWord 8 0x3 = some .confirm := by decide
theorem test_decode_pass_init : decodeTableWord 8 0x4 = some .passInit := by decide
theorem test_decode_fill : decodeTableWord 8 0x5 = some .fill := by decide
theorem test_decode_tx_start : decodeTableWord 8 0x6 = some .txStart := by decide
theorem test_decode_tx_wait : decodeTableWord 8 0x7 = some .txWait := by decide
theorem test_decode_delay : decodeTableWord 8 0x8 = some .delay := by decide
theorem test_decode_step : decodeTableWord 8 0x9 = some .step := by decide
theorem test_decode_unused_seq_a : decodeTableWord 8 0b1010 = some (.unusedSeqA 0) := by decide
theorem test_decode_unused_seq_c : decodeTableWord 8 0b1111 = some (.unusedSeqC 0b11) := by decide
theorem test_decode_rejects_wide : decodeTableWord 8 0x10 = none := by decide
theorem test_decode_rejects_nothing : decodeBytes .seq [] = .error .noBytes := by rfl
theorem test_encode_off : encode (.off 0b010) = 0b1010 := by decide
theorem test_encode_unused : (encode (.unusedSeqA 1), encode (.unusedSeqC 2)) = (0xB, 0xE) := by decide

/-! ## One cycle of each instruction -/

/-- S1. -/
theorem test_poll_idle : after (exec .poll (at' (params 6 50) 1)) (fun t => (t.btnCand, t.seq, t.mid)) = some (0xFF, 4, false) := by
  decide
/-- S2. -/
theorem test_poll_candidate :
    after (exec .poll (drive (fun i => { i with btn := 0xFE }) (at' (params 6 50) 1))) (fun t => (t.btnCand, t.dly, t.seq)) =
      some (0xFE, 10, 2) := by
  decide
/-- S12. -/
theorem test_debounce_last_tick :
    after (exec .debounce (drive (fun i => { i with tick := true }) { at' (params 6 50) 2 with dly := 1 }))
      (fun t => (t.dly, t.seq)) = some (0, 3) := by
  decide
/-- S11. -/
theorem test_debounce_counts :
    after (exec .debounce (drive (fun i => { i with tick := true }) { at' (params 6 50) 2 with dly := 10 }))
      (fun t => (t.dly, t.seq)) = some (9, 2) := by
  decide
/-- S10: an edge in the middle of a pass drops it. -/
theorem test_confirm_edge :
    after (exec .confirm (drive (fun i => { i with btn := 0xFE })
      { at' (params 6 50) 3 with btnCand := 0xFE, mid := true, mode := 7, head := 3 }))
      (fun t => (t.mode, t.head, t.btnAcc, t.seq, t.mid)) = some (0, 0, 0xFE, 4, false) := by
  decide
/-- S9: a release in the middle of a pass goes on with it. -/
theorem test_confirm_released :
    after (exec .confirm { at' (params 6 50) 3 with btnCand := 0xFE, mid := true })
      (fun t => (t.btnCand, t.btnAcc, t.seq, t.mid)) = some (0xFF, 0xFF, 5, false) := by
  decide
/-- R202: after a breathe pass with `dir = 1`. -/
theorem test_pass_init :
    after (exec .passInit { at' (params 6 50) 4 with dir := true, head := 3 }) (fun t => (t.dir, t.head, t.seq)) =
      some (false, 3, 5) := by
  decide
/-- X3. -/
theorem test_clear_last :
    after (exec .clear { at' (params 3 50) 0 with fidx := 2 }) (fun t => (t.fb, t.fidx, t.seq)) =
      some ([(6, 0), (7, 0), (8, 0)], 0, 1) := by
  decide
/-- R203: N = 3, mode 0, phase 2, first cycle; bytes in the order green, red, blue. -/
theorem test_fill_breathe :
    after (exec .fill { at' (params 3 50) 5 with phase := 2 }) (fun t => (t.fb, t.fidx, t.seq)) =
      some ([(0, 0), (1, 2), (2, 0)], 1, 5) := by
  decide
/-- R171: MAXB = 50, sub-phase 1, phase 10, head 3. -/
theorem test_fill_chase :
    after (exec .fill { at' (params 6 50) 5 with mode := 7, sub := 1, phase := 10, head := 3 })
      (fun t => (memPixel t.fb 3, t.seq)) = some (⟨40, 50, 0⟩, 6) := by
  decide
/-- T1: `tx_done` is not sampled. -/
theorem test_tx_start :
    (txStartOut (at' (params 6 50) 6),
      after (exec .txStart (drive (fun i => { i with txDone := true }) (at' (params 6 50) 6))) (fun t => t.seq)) =
      (true, some 7) := by
  decide
/-- T4. -/
theorem test_tx_wait_chase :
    after (exec .txWait (drive (fun i => { i with txDone := true }) { at' (params 6 50) 7 with mode := 7 }))
      (fun t => (t.dly, t.seq)) = some (25, 8) := by
  decide
/-- T5. -/
theorem test_tx_wait_off :
    after (exec .txWait (drive (fun i => { i with txDone := true }) { at' (params 6 50) 7 with mode := 9 })) (fun t => t.seq) =
      some 1 := by
  decide
/-- T6. -/
theorem test_delay_ignores_done :
    after (exec .delay (drive (fun i => { i with txDone := true }) { at' (params 6 50) 8 with dly := 5 }))
      (fun t => (t.dly, t.seq)) = some (5, 8) := by
  decide
/-- B5. -/
theorem test_step_breathe_peak :
    after (exec .step { at' (params 6 50) 9 with phase := 50 }) (fun t => (t.dir, t.phase, t.seq)) = some (true, 49, 5) := by
  decide
/-- H4. -/
theorem test_step_chase_end :
    after (exec .step { at' (params 4 2) 9 with mode := 7, phase := 1, sub := 5, head := 3 })
      (fun t => (t.phase, t.sub, t.head, t.seq)) = some (0, 0, 0, 1) := by
  decide
/-- X2. -/
theorem test_unused_c : after (exec (.unusedSeqC 0) { at' (params 6 50) 12 with mid := true }) (fun t => (t.seq, t.mid)) = some (1, false) := by
  decide
theorem test_unused_a : after (exec (.unusedSeqA 1) { at' (params 6 50) 11 with mid := true }) (fun t => (t.seq, t.mid)) = some (1, false) := by
  decide

/-! ## The mode instructions: 2.3's colours at phase 20, and the wire order -/

/-- A mode instruction's FILL cycle at pixel 0: the three wire bytes written. -/
def wireOf (i : Instr) (phase : Byte) : Option (Byte × Byte × Byte) :=
  after (exec i { at' (params 6 50) 5 with phase := phase }) (fun t => (memByte t.fb 0, memByte t.fb 1, memByte t.fb 2))

theorem test_red : wireOf .breatheRed 20 = some (0x00, 0x14, 0x00) := by decide
theorem test_yellow : wireOf .breatheYellow 20 = some (0x14, 0x14, 0x00) := by decide
theorem test_green : wireOf .breatheGreen 20 = some (0x14, 0x00, 0x00) := by decide
theorem test_cyan : wireOf .breatheCyan 20 = some (0x14, 0x00, 0x14) := by decide
theorem test_blue : wireOf .breatheBlue 20 = some (0x00, 0x00, 0x14) := by decide
theorem test_purple : wireOf .breathePurple 20 = some (0x00, 0x14, 0x14) := by decide
theorem test_white : wireOf .breatheWhite 20 = some (0x14, 0x14, 0x14) := by decide
/-- C1: the clamp. -/
theorem test_red_clamped : wireOf .breatheRed 60 = some (0x00, 50, 0x00) := by decide
/-- 2.5: sub-phase 0, phase 0 is red at the ceiling. -/
theorem test_rainbow : wireOf .rainbowChase 0 = some (0x00, 50, 0x00) := by decide
theorem test_off : wireOf (.off 0) 20 = some (0x00, 0x00, 0x00) := by decide
/-- 2.5: a sub-phase no rule writes is dark. -/
theorem test_chase_sub_six : framePixel .chase (params 6 50) 10 6 = ⟨0, 0, 0⟩ := by decide
/-- 2.6: with N = 5 a head at 6 drops the write. -/
theorem test_chase_head_out :
    after (exec .fill { at' (params 5 2) 5 with mode := 7, head := 6 }) (fun t => t.fb) = some [] := by
  decide

/-! ## Reset, read port, fetch -/

/-- X1. -/
theorem test_reset_overrides :
    let s := drive (fun i => { i with rst := true }) { at' (params 6 50) 6 with mode := 5, fb := [(4, 9)] }
    txStartOut s = false ∧ after (step s) (fun t => (t.seq, t.mode, t.btnAcc)) = some (0, 0, 0xFF) ∧
      after (step s) (fun t => memRead t.fb 4) = some (some 9) := by
  decide
/-- 2.9: N = 2, `fb[1] = (1, 2, 3)`, addresses 3 to 6. -/
theorem test_read_port :
    [3, 4, 5, 6].map (fun a =>
      after (step (drive (fun i => { i with fbRdAddr := a })
        { at' (params 2 50) 4 with fb := memWritePixel [] 1 ⟨1, 2, 3⟩ })) (fun t => fbRdDataOut t)) =
      [some 2, some 1, some 3, some 0] := by
  decide
/-- P1, c13 and c14: the read sees the frame buffer before the write of the same cycle. -/
theorem test_read_before_write :
    after (step (drive (fun i => { i with fbRdAddr := 1 })
      { at' (params 2 1) 5 with phase := 1, fb := [(0, 0), (1, 0), (2, 0)] })) (fun t => (t.rdQ, memByte t.fb 1)) =
      some (0, 1) := by
  decide
theorem test_step_fetches : after (step (State.reset.withFetchWord 8 0xA)) (fun t => t.seq) = some 1 := by decide
theorem test_first_cycle_clears :
    after (step (State.reset.withFetchWord 8 0x0)) (fun t => (t.fb, t.fidx)) = some ([(0, 0), (1, 0), (2, 0)], 1) := by
  decide
/-- R94: packed pixels. -/
theorem test_pack : pixelPack ⟨40, 50, 0⟩ = 0x283200 ∧ pixelUnpack 0x283200 = ⟨40, 50, 0⟩ := by decide
/-- R100: `fast`. -/
theorem test_fast_driver :
    (runScript (params 2 1) 0 (fastCommand ++ [.start [.mode 8, .seq 6], .runCycles 1, .expect (.seq 7)])).good = true := by
  decide

/-- A `start` in cycle 2: the next frame event is numbered 2 (assumption 11). -/
theorem test_start_keeps_the_count_of_cycles :
    let b := { benchOf (params 2 1) with state := { at' (params 2 1) 1 with cycle := 2 }, clock := 2 }
    ([.start [.mode 8, .seq 6], .runCycles 1].foldl (runCommand 0) b).events.map (fun e => e.cycle) = [2] := by
  decide

/-- A run that waits for a `tx_done` that never comes is cut short, and the script is no longer good (assumption 11). -/
theorem test_run_cut_short :
    let b := { benchOf (params 2 1) with state := at' (params 2 1) 7 }
    ((runCommand 3 b (.runPasses 1)).good, (runCommand 3 b (.runCycles 2)).good) = (false, true) := by
  decide
/-- R122, R202: an out-of-range `dly` outlasts `PASS_INIT` (assumption 20). -/
theorem test_pass_init_keeps_dly :
    after (exec .passInit { at' (params 6 50) 4 with dly := 255 }) (fun t => t.dly) = some 255 := by
  decide

/-! ## Witnesses: for each statement with hypotheses, a state and operands that meet them -/

/-- The one hypothesis of the sequencer's result statements, of `FrameColours`, `BreathePassRampsUpAndDown` and
`EveryStateHasANextState`: legal parameters, here at both ends of every range. -/
theorem witness_legal_parameters :
    (State.resetOf ⟨1, 1, 1, 1, 1, false, false⟩).params.legal = true ∧
      (State.resetOf ⟨65535, 255, 255, 255, 255, true, true⟩).params.legal = true := by
  decide
theorem witness_UnusedCodesGoToPoll :
    (at' (params 6 50) 0xA).params.legal = true ∧ 0xA ≤ (at' (params 6 50) 0xA).seq.toNat := by
  decide
theorem witness_TxStartPulsesOnce :
    (∃ t, step (at' (params 6 50) 6) = .next t) ∧ txStartOut (at' (params 6 50) 6) = true ∧
      after (step { at' (params 6 50) 5 with mode := 7 }) (fun t => t.seq) = some 0x6 := ⟨⟨_, rfl⟩, by decide, by decide⟩
theorem witness_TxWaitWaitsForDone : (at' (params 6 50) 6).seq ≠ 0x7 ∧ (at' (params 6 50) 8).params.legal = true := by decide
/-- Each clause of `BreatheInstructionsRunTheirFrame`, `RainbowChaseRunsItsFrame` and `OffShowsOneDarkFrame`. -/
theorem witness_frame_cycles :
    ∀ c ∈ [(0x5 : Code), 0x6, 0x7, 0x8, 0x9], (at' (params 6 50) c).params.legal = true ∧ (at' (params 6 50) c).seq = c := by
  decide
theorem witness_ModeInstructionsOutsideAFrame :
    (Instr.off 7).format = .mode ∧ (at' (params 6 50) 0xA).seq ∉ [0x5#4, 0x6#4, 0x7#4, 0x8#4, 0x9#4] ∧
      (at' (params 6 50) 0x4).seq ∉ [0x5#4, 0x6#4, 0x7#4, 0x8#4, 0x9#4] := by
  decide
theorem witness_FrameColours_off : Params.scenario.legal = true ∧ 8 ≤ (8 : Code).toNat ∧ 8 ≤ (15 : Code).toNat := by decide
theorem witness_ClampOnlyActsOutOfRange : Params.scenario.legal = true ∧ (50 : Byte).toNat ≤ Params.scenario.maxB := by decide
theorem witness_AdvancesCycleThroughTheModes : (7 : Code).toNat ≤ 7 ∧ 8 ≤ (8 : Code).toNat ∧ 1 ≤ 1 := by decide
theorem witness_ChasePassVisitsSixSubPhases :
    (params 1 1).legal = true ∧ (0 : Index).toNat < (params 1 1).n ∧ (params 6 50).legal = true ∧
      (5 : Index).toNat < (params 6 50).n := by
  decide
theorem witness_PixelWritesShowInTheByteView :
    5 < State.reset.params.n ∧ 17 / 3 ≠ 4 ∧ State.reset.params.n ≤ 6 := by
  decide
theorem witness_ReadPortLatchesTheByteAddressed :
    (∃ t, step (at' (params 6 50) 4) = .next t) ∧
      (∃ t, step (drive (fun i => { i with rst := true }) (at' (params 6 50) 4)) = .next t) := ⟨⟨_, rfl⟩, ⟨_, rfl⟩⟩
/-- Byte 3 lies outside the pixel `CLEAR` writes. -/
theorem witness_EveryOtherByteIsUnchanged :
    (∃ t, exec .clear (at' (params 6 50) 0) = .next t) ∧
      ∀ k, pixelAddressed .clear (at' (params 6 50) 0) = some k → k < 6 → ¬(3 * k ≤ 3 ∧ 3 < 3 * k + 3) := by
  refine ⟨⟨_, rfl⟩, fun k h _ => ?_⟩
  have : some (0 : Nat) = some k := Eq.trans (by decide) h
  cases this
  omega
theorem witness_FrameStableUntilDone :
    (∃ t, step (at' (params 6 50) 6) = .next t) ∧ (at' (params 6 50) 6).seq ≠ 0x0 ∧ (at' (params 6 50) 6).seq ≠ 0x5 ∧
      (let s := { at' (params 6 50) 6 with stim := List.replicate 3 (Inputs.quiet (params 6 50)) }
       s.params.legal = true ∧ s.seq = 0x6 ∧ noReset s 3 = true ∧ ∀ j < 2, (inputsAt s (j + 1)).txDone = false) := by
  refine ⟨⟨_, rfl⟩, by decide⟩
theorem witness_StepRunsTheDecodedOperation :
    (inputsNow (at' (params 6 50) 4)).rst = false ∧ decodeTableWord 8 15 = some (.unusedSeqC 3) := by
  decide
theorem witness_ResetCycleSetsEveryRegister :
    let s := drive (fun i => { i with rst := true }) (at' (params 6 50) 6)
    let s' := { s with stim := s.stim ++ [Inputs.quiet (params 6 50)] }
    s'.params.legal = true ∧ (inputsNow s').rst = true ∧ after (step s') (fun t => (inputsNow t).rst) = some false := by
  decide
theorem witness_PowerUpNeedsOneResetCycle :
    Params.scenario.legal = true ∧ ({ Inputs.quiet Params.scenario with rst := true }).rst = true := by
  decide
theorem witness_IllegalParametersAreRefused : (at' (params 0 50) 0).params.legal = false := by decide
theorem witness_ParametersNeverChange :
    (∃ t, step (at' (params 6 50) 0) = .next t) ∧ ∃ t, exec .breatheRed (at' (params 6 50) 0) = .next t := ⟨⟨_, rfl⟩, ⟨_, rfl⟩⟩
/-- Every clause: a step without reset from each sequencer code. -/
theorem witness_NextStatesAreThoseOfTheTable (c : Code) :
    (∃ t, step (at' (params 6 50) c) = .next t) ∧ (inputsNow (at' (params 6 50) c)).rst = false :=
  ⟨⟨_, step_of_legal (by rfl) rfl⟩, rfl⟩
theorem witness_ModeChangesOnlyOnAnEdge :
    let s := drive (fun i => { i with btn := 0xFE }) { at' (params 6 50) 3 with btnCand := 0xFE }
    (inputsNow s).rst = false ∧ after (step s) (fun t => decide (t.mode ≠ s.mode)) = some true := by
  decide
/-- Both ways the accepted sample can change. -/
theorem witness_AcceptedSampleChangesOnlyOnAnEdge :
    let s := drive (fun i => { i with btn := 0xFE }) { at' (params 6 50) 3 with btnCand := 0xFE }
    let r := { at' { params 6 50 with releaseClears := true } 1 with btnAcc := 0xFE }
    (inputsNow s).rst = false ∧ after (step s) (fun t => decide (t.btnAcc ≠ s.btnAcc)) = some true ∧
      (inputsNow r).rst = false ∧ after (step r) (fun t => decide (t.btnAcc ≠ r.btnAcc)) = some true := by
  decide
/-- In `PASS_INIT` every input but the reset and the read address may differ. -/
theorem witness_InputsAreSampledOnlyWhereNamed :
    let i := Inputs.quiet (params 6 50)
    let j : Inputs := { i with tick := true, btn := 0, txDone := true }
    let s := at' (params 6 50) 4
    i.rst = j.rst ∧ i.fbRdAddr = j.fbRdAddr ∧ (s.seq = 0x2 ∨ s.seq = 0x8 → i.tick = j.tick) ∧
      (s.seq = 0x1 ∨ s.seq = 0x3 → i.btn = j.btn) ∧ (s.seq = 0x7 → i.txDone = j.txDone) := by
  decide
theorem witness_ReadsHaveNoSideEffect :
    ∃ t, step (withInputs (at' (params 6 50) 5) (Inputs.quiet (params 6 50))) = .next t := ⟨_, rfl⟩
/-- Both clauses: pixel 0 is written, byte 3 is not; and a reset cycle. -/
theorem witness_NoOperationReadsTheFrameBuffer :
    let s := at' (params 6 50) 5
    (∃ t, step s = .next t) ∧ (inputsNow s).rst = false ∧ pixelAddressed (decodeSeq s.seq) s = some 0 ∧
      (∃ t, step (drive (fun i => { i with rst := true }) s) = .next t) := ⟨⟨_, rfl⟩, by decide, by decide, ⟨_, rfl⟩⟩
theorem witness_BootClearTakesNCycles :
    let s := { at' (params 6 50) 0 with stim := List.replicate 6 (Inputs.quiet (params 6 50)) }
    s.params.legal = true ∧ s.seq = 0x0 ∧ s.fidx = 0 ∧ noReset s s.params.n = true := by
  decide
theorem witness_FullStripFillTakesNCycles :
    let s := { at' (params 6 50) 5 with stim := List.replicate 6 (Inputs.quiet (params 6 50)), phase := 50, mode := 6 }
    s.params.legal = true ∧ s.seq = 0x5 ∧ s.mode ≠ 7 ∧ s.fidx = 0 ∧ noReset s s.params.n = true := by
  decide
/-- Both clauses, in both waits, at the least counts. -/
theorem witness_WaitsEndAtTheirLastTick :
    let i := Inputs.quiet (params 6 50)
    let s := { at' (params 6 50) 2 with dly := 2, stim := [{ i with tick := true }, { i with tick := true }] }
    let z := { at' (params 6 50) 8 with dly := 0, stim := [{ i with tick := true }] }
    (s.params.legal = true ∧ (s.seq = 0x2 ∨ s.seq = 0x8) ∧ noReset s 1 = true ∧ ticksIn s 1 < max 1 s.dly.toNat ∧
      noReset s 2 = true ∧ ticksIn s 1 + 1 = max 1 s.dly.toNat ∧ (inputsAt s 1).tick = true) ∧
    (z.params.legal = true ∧ (z.seq = 0x2 ∨ z.seq = 0x8) ∧ noReset z 0 = true ∧ ticksIn z 0 < max 1 z.dly.toNat ∧
      noReset z 1 = true ∧ ticksIn z 0 + 1 = max 1 z.dly.toNat ∧ (inputsAt z 0).tick = true) := by
  decide
theorem witness_RegisterRangesAreKept :
    (at' (params 6 50) 9).RegistersInRange ∧ ∃ t, step (at' (params 6 50) 9) = .next t :=
  ⟨⟨by decide, by decide, by decide, by decide, by decide, by decide, by decide, by decide⟩, ⟨_, rfl⟩⟩
theorem witness_FrameBufferInvariantIsKept :
    let s := { at' (params 6 50) 5 with fb := [(0, 50), (17, 1)] }
    s.memoryOk ∧ s.channelsInRange ∧ ∃ t, step s = .next t := ⟨by decide, by decide, ⟨_, rfl⟩⟩
theorem witness_ClearedFrameStaysWritten :
    let s := { at' (params 1 50) 1 with fb := memWritePixel [] 0 Pixel.black }
    s.cleared ∧ ∃ t, step s = .next t := ⟨by decide, ⟨_, rfl⟩⟩
theorem witness_IndexWidthsAreKept : (at' (params 6 50) 5).widthsOk ∧ ∃ t, step (at' (params 6 50) 5) = .next t :=
  ⟨by decide, ⟨_, rfl⟩⟩
theorem witness_FillIndexIsIdleOutsideFills :
    (at' (params 6 50) 5).fillIndexIdle ∧ ∃ t, step (at' (params 6 50) 5) = .next t := ⟨by decide, ⟨_, rfl⟩⟩
theorem witness_CandidateStaysACandidate :
    let s := { at' (params 6 50) 2 with btnCand := 0xFE }
    s.candidatePending ∧ ∃ t, step s = .next t := ⟨by decide, ⟨_, rfl⟩⟩
theorem witness_ResetMeetsTheInvariants : Params.scenario.legal = true := by decide
theorem witness_DecodeAndEncodeAgree : 16 ≤ (16 : Byte).toNat := by decide

end Sys2Proof.Tests
end

section
/-! The byte view of the frame buffer over the pixel view, and what a pixel write does to it (spec/20_memory.md R61, R62). -/

namespace Sys2Proof.Machine

theorem fbReadByte_of_ge {s : State} {a : Nat} (h : 3 * s.params.n ≤ a) : fbReadByte s a = 0x00 := if_pos h

theorem fbReadByte_of_lt {s : State} {a : Nat} (h : a < 3 * s.params.n) : fbReadByte s a = memByte s.fb a :=
  if_neg (by omega)

/-- A byte is the channel of its pixel that its place in wire order names (R61). -/
theorem memByte_eq_channel (m : Memory) (a : Nat) :
    memByte m a =
      if a % 3 = 0 then (memPixel m (a / 3)).g
      else if a % 3 = 1 then (memPixel m (a / 3)).r
      else (memPixel m (a / 3)).b := by
  obtain h | h | h : a % 3 = 0 ∨ a % 3 = 1 ∨ a % 3 = 2 := by omega
  · rw [if_pos h, memPixel, show 3 * (a / 3) = a by omega]
  · rw [if_neg (by omega), if_pos h, memPixel, show 3 * (a / 3) + 1 = a by omega]
  · rw [if_neg (by omega), if_neg (by omega), memPixel, show 3 * (a / 3) + 2 = a by omega]

/-- The byte view after a write inside the strip: the three bytes written, and every other byte as before (R61). -/
theorem fbReadByte_fbWrite_of_lt {s : State} {i : Nat} (h : i < s.params.n) (x : Pixel) (a : Nat) :
    fbReadByte (fbWrite s i x) a =
      if a = 3 * i then x.g else if a = 3 * i + 1 then x.r else if a = 3 * i + 2 then x.b else fbReadByte s a := by
  by_cases ha : a < 3 * s.params.n
  · rw [fbReadByte_of_lt (by simpa using ha), fbReadByte_of_lt ha, fbWrite_fb, if_pos h]
    simp only [memByte, memRead_memWritePixel]
    split_ifs <;> rfl
  · rw [fbReadByte_of_ge (by simpa using ha), fbReadByte_of_ge (by omega), if_neg (by omega), if_neg (by omega),
      if_neg (by omega)]

/-- A pixel write, inside the strip or not, leaves the bytes of every other pixel alone. -/
theorem fbReadByte_fbWrite_of_ne (s : State) {i a : Nat} (h : a / 3 ≠ i) (x : Pixel) :
    fbReadByte (fbWrite s i x) a = fbReadByte s a := by
  by_cases hi : i < s.params.n
  · rw [fbReadByte_fbWrite_of_lt hi, if_neg (by omega), if_neg (by omega), if_neg (by omega)]
  · rw [fbWrite_of_ge (by omega)]

/-- Settles O22: the byte view after a pixel write, and the byte view over the pixel view. -/
theorem pixelWritesShowInTheByteView : Obligations.PixelWritesShowInTheByteView := by
  intro s i x
  refine ⟨fun hi => ?_, fun a ha => fbReadByte_fbWrite_of_ne s ha x, fun hi => fbWrite_of_ge hi x, fun a => ?_⟩
  · simp [fbReadByte_fbWrite_of_lt hi]
  · rw [← memByte_eq_channel]
    rfl

end Sys2Proof.Machine
end

section
/-! The read port's register `rd_q`: no operation writes it, so after a cycle it holds what the port latched (R63). -/

namespace Sys2Proof.Machine

@[simp] theorem opClear_rdQ (inp : Inputs) (s : State) : (opClear inp s).rdQ = s.rdQ := by
  unfold opClear; split <;> simp

@[simp] theorem opPoll_rdQ (inp : Inputs) (s : State) : (opPoll inp s).rdQ = s.rdQ := by
  unfold opPoll; split <;> rfl

@[simp] theorem opWait_rdQ (after : Code) (inp : Inputs) (s : State) : (opWait after inp s).rdQ = s.rdQ := by
  unfold opWait; split_ifs <;> rfl

@[simp] theorem opDebounce_rdQ (inp : Inputs) (s : State) : (opDebounce inp s).rdQ = s.rdQ := opWait_rdQ _ inp s

@[simp] theorem opConfirm_rdQ (inp : Inputs) (s : State) : (opConfirm inp s).rdQ = s.rdQ := by
  unfold opConfirm; split <;> rfl

@[simp] theorem opPassInit_rdQ (inp : Inputs) (s : State) : (opPassInit inp s).rdQ = s.rdQ := rfl

@[simp] theorem fillStrip_rdQ (x : Pixel) (s : State) : (fillStrip x s).rdQ = s.rdQ := by
  unfold fillStrip; split <;> simp

@[simp] theorem fillHead_rdQ (x : Pixel) (s : State) : (fillHead x s).rdQ = s.rdQ := fbWrite_rdQ ..

@[simp] theorem opFill_rdQ (r : Render) (inp : Inputs) (s : State) : (opFill r inp s).rdQ = s.rdQ := by
  cases r <;> simp [opFill]

@[simp] theorem opTxStart_rdQ (inp : Inputs) (s : State) : (opTxStart inp s).rdQ = s.rdQ := rfl

@[simp] theorem opTxWait_rdQ (r : Render) (inp : Inputs) (s : State) : (opTxWait r inp s).rdQ = s.rdQ := by
  unfold opTxWait; cases r <;> simp only [frameDelay] <;> split <;> rfl

@[simp] theorem opDelay_rdQ (inp : Inputs) (s : State) : (opDelay inp s).rdQ = s.rdQ := opWait_rdQ _ inp s

@[simp] theorem endStep_rdQ (done : Bool) (s : State) : (endStep done s).rdQ = s.rdQ := by
  unfold endStep; split_ifs <;> rfl

@[simp] theorem opStep_rdQ (r : Render) (inp : Inputs) (s : State) : (opStep r inp s).rdQ = s.rdQ := by
  cases r <;> simp [opStep]

@[simp] theorem opUnused_rdQ (inp : Inputs) (s : State) : (opUnused inp s).rdQ = s.rdQ := rfl

@[simp] theorem opRender_rdQ (r : Render) (inp : Inputs) (s : State) : (opRender r inp s).rdQ = s.rdQ := by
  unfold opRender; split <;> simp

/-- No instruction writes `rd_q`. -/
@[simp] theorem writesOf_rdQ (i : Instr) (m : Code) (inp : Inputs) (s : State) : (writesOf i m inp s).rdQ = s.rdQ := by
  cases i <;> simp [writesOf]

/-- Settles O24: a reset cycle clears `rd_q`, and in any other cycle only the port's latch writes it. -/
theorem readPortLatchesTheByteAddressed : Obligations.ReadPortLatchesTheByteAddressed := by
  intro s t h
  obtain ⟨-, ⟨hr, rfl⟩ | ⟨hr, rfl⟩⟩ := step_cases h
  · rw [if_pos hr, fbRdDataOut, resetRegisters_rdQ]
  · rw [if_neg (by simp [hr]), fbRdDataOut, writesOf_rdQ, passCycle_rdQ, readAddr, fitAddr]

end Sys2Proof.Machine
end

section
/-! The button sampler's two samples, a branch at a time (spec/40_button_sampler.md R121, R123), and the instructions'
whole next states. -/

namespace Sys2Proof.Machine

/-- A candidate starts a debounce; `btn_acc` and `mid` wait for its outcome (R121). -/
theorem opPoll_of_isCandidate {inp : Inputs} {s : State} (h : isCandidate s inp.btn) :
    opPoll inp s =
      { s with btnCand := inp.btn, dly := BitVec.ofNat 8 s.params.debounceTicks, seq := seqDebounce } :=
  if_pos h

/-- A sample that is no candidate returns from the poll (R121). -/
theorem opPoll_of_not_isCandidate {inp : Inputs} {s : State} (h : ¬ isCandidate s inp.btn) :
    opPoll inp s =
      { s with
        btnCand := inp.btn, btnAcc := if releasesAccepted s inp.btn then btnIdle else s.btnAcc,
        seq := pollReturn s, mid := false } :=
  if_neg h

/-- An edge accepts the sample and advances the mode (R123, R140). -/
theorem opConfirm_of_isEdge {inp : Inputs} {s : State} (h : isEdge s inp.btn) :
    opConfirm inp s =
      { advanceMode s with btnCand := inp.btn, btnAcc := inp.btn, seq := seqPassInit, mid := false } :=
  if_pos h

/-- A re-read that is no edge returns from the poll, and the debounce is not restarted (R123). -/
theorem opConfirm_of_not_isEdge {inp : Inputs} {s : State} (h : ¬ isEdge s inp.btn) :
    opConfirm inp s = { s with btnCand := inp.btn, seq := pollReturn s, mid := false } :=
  if_neg h

/-- Settles O2: a candidate goes to `DEBOUNCE`, and any other sample back to where the poll came from. -/
theorem pollTakesTheFirstSample : Obligations.PollTakesTheFirstSample := by
  refine ⟨rfl, fun s hs => ?_⟩
  rw [exec_of_legal _ hs, writesOf]
  by_cases h : isCandidate (passCycle s) (inputsNow s).btn
  · rw [opPoll_of_isCandidate h]
    exact congrArg _ (if_pos h).symm
  · rw [opPoll_of_not_isCandidate h]
    exact congrArg _ (if_neg h).symm

/-- Settles O4: an edge advances the mode, and any other re-read is recorded as the candidate alone. -/
theorem confirmReportsAnEdgeOrNone : Obligations.ConfirmReportsAnEdgeOrNone := by
  refine ⟨rfl, fun s hs => ?_⟩
  rw [exec_of_legal _ hs, writesOf]
  by_cases h : isEdge (passCycle s) (inputsNow s).btn
  · rw [opConfirm_of_isEdge h]
    exact congrArg _ (if_pos h).symm
  · rw [opConfirm_of_not_isEdge h]
    exact congrArg _ (if_neg h).symm

end Sys2Proof.Machine
end

section
/-! The register `mode`: of the sequencer's operations only the edge branch of `CONFIRM` writes it
(spec/41_mode_sequencer.md R142). -/

namespace Sys2Proof.Machine

@[simp] theorem opClear_mode (inp : Inputs) (s : State) : (opClear inp s).mode = s.mode := by
  unfold opClear; split <;> simp

@[simp] theorem opPoll_mode (inp : Inputs) (s : State) : (opPoll inp s).mode = s.mode := by
  unfold opPoll; split <;> rfl

@[simp] theorem opWait_mode (after : Code) (inp : Inputs) (s : State) : (opWait after inp s).mode = s.mode := by
  unfold opWait; split_ifs <;> rfl

@[simp] theorem opDebounce_mode (inp : Inputs) (s : State) : (opDebounce inp s).mode = s.mode := opWait_mode _ inp s

@[simp] theorem opPassInit_mode (inp : Inputs) (s : State) : (opPassInit inp s).mode = s.mode := rfl

@[simp] theorem fillStrip_mode (x : Pixel) (s : State) : (fillStrip x s).mode = s.mode := by
  unfold fillStrip; split <;> simp

@[simp] theorem fillHead_mode (x : Pixel) (s : State) : (fillHead x s).mode = s.mode := fbWrite_mode ..

@[simp] theorem opFill_mode (r : Render) (inp : Inputs) (s : State) : (opFill r inp s).mode = s.mode := by
  cases r <;> simp [opFill]

@[simp] theorem opTxStart_mode (inp : Inputs) (s : State) : (opTxStart inp s).mode = s.mode := rfl

@[simp] theorem opTxWait_mode (r : Render) (inp : Inputs) (s : State) : (opTxWait r inp s).mode = s.mode := by
  unfold opTxWait; cases r <;> simp only [frameDelay] <;> split <;> rfl

@[simp] theorem opDelay_mode (inp : Inputs) (s : State) : (opDelay inp s).mode = s.mode := opWait_mode _ inp s

@[simp] theorem endStep_mode (done : Bool) (s : State) : (endStep done s).mode = s.mode := by
  unfold endStep; split_ifs <;> rfl

@[simp] theorem opStep_mode (r : Render) (inp : Inputs) (s : State) : (opStep r inp s).mode = s.mode := by
  cases r <;> simp [opStep]

@[simp] theorem opUnused_mode (inp : Inputs) (s : State) : (opUnused inp s).mode = s.mode := rfl

/-- `CONFIRM` without an edge leaves the mode alone, so a mode it changes means an edge (R123). -/
theorem isEdge_of_opConfirm_mode_ne {inp : Inputs} {s : State} (h : (opConfirm inp s).mode ≠ s.mode) :
    isEdge s inp.btn := by
  by_contra he
  exact h (by rw [opConfirm_of_not_isEdge he])

/-- A sequencer operation other than `CONFIRM` leaves the mode alone (R142). -/
theorem writesOf_mode_of_ne_confirm {i : Instr} (hf : i.format = .seq) (hi : i ≠ .confirm) (m : Code) (inp : Inputs)
    (s : State) : (writesOf i m inp s).mode = s.mode := by
  cases i
  case confirm => exact absurd rfl hi
  case breatheRed | breatheYellow | breatheGreen | breatheCyan | breatheBlue | breathePurple | breatheWhite |
      rainbowChase | off => cases hf
  all_goals simp [writesOf]

/-- The codes in the register `seq` are read in the format SEQ (R90). -/
@[simp] theorem decodeSeq_format (c : Code) : (decodeSeq c).format = .seq := by
  revert c; decide

/-- `CONFIRM` has the one code 0x3 (R96). -/
theorem decodeSeq_eq_confirm_iff (c : Code) : decodeSeq c = .confirm ↔ c = 0x3 := by
  revert c; decide

/-- Settles O34: only `CONFIRM` can change the mode, and there only its edge branch, which advances it by one. -/
theorem modeChangesOnlyOnAnEdge : Obligations.ModeChangesOnlyOnAnEdge := by
  intro s t h hr hm
  obtain ⟨-, ⟨hr', -⟩ | ⟨-, rfl⟩⟩ := step_cases h
  · simp [hr] at hr'
  have hc : decodeSeq s.seq = .confirm := by
    by_contra hc
    exact hm (writesOf_mode_of_ne_confirm (decodeSeq_format _) hc ..)
  rw [hc, writesOf] at hm ⊢
  have he : isEdge (passCycle s) (inputsNow s).btn := isEdge_of_opConfirm_mode_ne hm
  rw [opConfirm_of_isEdge he]
  obtain ⟨hcand, hidle, hacc⟩ := he
  exact ⟨(decodeSeq_eq_confirm_iff _).1 hc, hcand, hidle, hacc, rfl, rfl, rfl, rfl⟩

end Sys2Proof.Machine
end

section
/-! The transition table of the sequencer (spec/43_frame_writer_and_pass_control.md R200): the states each operation can
lead to, and the step read as the operation `seq` names. -/

namespace Sys2Proof.Machine

theorem opClear_seq_cases (inp : Inputs) (s : State) :
    (opClear inp s).seq = s.seq ∨ (opClear inp s).seq = seqPoll := by
  unfold opClear; split <;> simp

/-- A poll without an edge returns into the frame only from the middle of a pass (R31). -/
theorem pollReturn_cases (s : State) : pollReturn s = seqPassInit ∨ (pollReturn s = seqFill ∧ s.mid = true) := by
  unfold pollReturn; cases s.mid <;> simp

theorem opPoll_seq_cases (inp : Inputs) (s : State) :
    (opPoll inp s).seq = seqDebounce ∨ (opPoll inp s).seq = seqPassInit ∨
      ((opPoll inp s).seq = seqFill ∧ s.mid = true) := by
  by_cases h : isCandidate s inp.btn
  · rw [opPoll_of_isCandidate h]
    exact .inl rfl
  · rw [opPoll_of_not_isCandidate h]
    exact .inr (pollReturn_cases s)

theorem opWait_seq_cases (after : Code) (inp : Inputs) (s : State) :
    (opWait after inp s).seq = s.seq ∨ (opWait after inp s).seq = after := by
  unfold opWait; split_ifs <;> simp

/-- `CONFIRM` goes on with the frame only in the middle of a pass and without an edge (R123). -/
theorem opConfirm_seq_cases (inp : Inputs) (s : State) :
    (opConfirm inp s).seq = seqPassInit ∨
      ((opConfirm inp s).seq = seqFill ∧ s.mid = true ∧ (opConfirm inp s).mode = s.mode ∧
        (opConfirm inp s).btnAcc = s.btnAcc) := by
  by_cases h : isEdge s inp.btn
  · rw [opConfirm_of_isEdge h]
    exact .inl rfl
  · rw [opConfirm_of_not_isEdge h]
    exact (pollReturn_cases s).imp_right fun ⟨hfill, hmid⟩ => ⟨hfill, hmid, rfl, rfl⟩

theorem fillStrip_seq_cases (x : Pixel) (s : State) :
    (fillStrip x s).seq = s.seq ∨ (fillStrip x s).seq = seqTxStart := by
  unfold fillStrip; split <;> simp

theorem opFill_seq_cases (r : Render) (inp : Inputs) (s : State) :
    (opFill r inp s).seq = s.seq ∨ (opFill r inp s).seq = seqTxStart := by
  cases r
  case chase => exact .inr rfl
  case breathe | off => exact fillStrip_seq_cases _ s

/-- `TX_WAIT` ends the pass in the off mode alone, which has no delay (R178, R207). -/
theorem opTxWait_seq_cases (r : Render) (inp : Inputs) (s : State) :
    (opTxWait r inp s).seq = s.seq ∨ (opTxWait r inp s).seq = seqDelay ∨
      ((opTxWait r inp s).seq = seqPoll ∧ r = .off) := by
  unfold opTxWait; split
  · cases r <;> simp [frameDelay]
  · exact .inl rfl

theorem endStep_seq_cases (done : Bool) (s : State) :
    (endStep done s).seq = seqFill ∨ (endStep done s).seq = seqPoll := by
  unfold endStep; split_ifs <;> simp

theorem opStep_seq_cases (r : Render) (inp : Inputs) (s : State) :
    (opStep r inp s).seq = seqFill ∨ (opStep r inp s).seq = seqPoll := by
  cases r <;> exact endStep_seq_cases _ _

/-- The off fallback is what the codes 8 to 15 select (R92). -/
theorem renderOf_eq_off_iff (m : Code) : renderOf m = .off ↔ 8 ≤ m.toNat := by
  revert m; decide

/-- The six unused codes are absorbed into `POLL` (R243). -/
theorem writesOf_decodeSeq_of_unused {c : Code} (h : 0xA ≤ c.toNat) (m : Code) :
    writesOf (decodeSeq c) m = opUnused := by
  have hrow : ∀ c : Code, 0xA ≤ c.toNat →
      decodeSeq c = .unusedSeqA (c.extractLsb' 0 1) ∨ decodeSeq c = .unusedSeqC (c.extractLsb' 0 2) := by decide
  obtain hc | hc := hrow c h <;> rw [hc, writesOf]

/-- Without reset the engine performs the operation `seq` names (R200). -/
theorem step_eq_exec {s : State} (hr : (inputsNow s).rst = false) : step s = exec (decodeSeq s.seq) s :=
  if_neg (by simp [hr])

/-- The next state of a step without reset, by the operation that the code in `seq` stands for. -/
theorem step_next_eq_writesOf {s t : State} (h : step s = .next t) (hr : (inputsNow s).rst = false) {c : Code}
    (hc : s.seq = c) {i : Instr} (hi : decodeSeq c = i) : t = writesOf i s.mode (inputsNow s) (passCycle s) := by
  subst hc hi
  rw [step_eq_exec hr, exec_eq_runCycle] at h
  exact (runCycle_next h).2

/-- Settles O33: each code's operation, with the states that operation can lead to. -/
theorem nextStatesAreThoseOfTheTable : Obligations.NextStatesAreThoseOfTheTable := by
  intro s t h hr
  refine ⟨step_eq_exec hr ▸ h, fun hc => ?clear, fun hc => ?poll, fun hc => ?debounce, fun hc => ?confirm,
    fun hc => ?passInit, fun hc => ?fill, fun hc => ?txStart, fun hc => ?txWait, fun hc => ?delay, fun hc => ?step,
    fun hc => ?unused⟩
  case clear =>
    rw [step_next_eq_writesOf h hr hc (i := .clear) rfl]
    exact hc ▸ opClear_seq_cases (inputsNow s) (passCycle s)
  case poll =>
    rw [step_next_eq_writesOf h hr hc (i := .poll) rfl]
    exact opPoll_seq_cases _ (passCycle s)
  case debounce =>
    rw [step_next_eq_writesOf h hr hc (i := .debounce) rfl]
    exact hc ▸ opWait_seq_cases seqConfirm _ (passCycle s)
  case confirm =>
    rw [step_next_eq_writesOf h hr hc (i := .confirm) rfl]
    exact opConfirm_seq_cases _ (passCycle s)
  case passInit =>
    rw [step_next_eq_writesOf h hr hc (i := .passInit) rfl]
    rfl
  case fill =>
    rw [step_next_eq_writesOf h hr hc (i := .fill) rfl]
    exact hc ▸ opFill_seq_cases _ (inputsNow s) (passCycle s)
  case txStart =>
    rw [step_next_eq_writesOf h hr hc (i := .txStart) rfl]
    rfl
  case txWait =>
    rw [step_next_eq_writesOf h hr hc (i := .txWait) rfl, ← renderOf_eq_off_iff]
    exact hc ▸ opTxWait_seq_cases _ _ (passCycle s)
  case delay =>
    rw [step_next_eq_writesOf h hr hc (i := .delay) rfl]
    exact hc ▸ opWait_seq_cases seqStep _ (passCycle s)
  case step =>
    rw [step_next_eq_writesOf h hr hc (i := .step) rfl]
    exact opStep_seq_cases _ (inputsNow s) (passCycle s)
  case unused =>
    rw [step_next_eq_writesOf h hr rfl rfl, writesOf_decodeSeq_of_unused hc]
    rfl

end Sys2Proof.Machine
end

section
/-! The start of a pass and of a transmission: `PASS_INIT` (R202), and `TX_START` with its output `tx_start` (R206). -/

namespace Sys2Proof.Machine

/-- Settles O5: the register writes of `PASS_INIT`, in a completed cycle. -/
theorem passInitSetsTheCursors : Obligations.PassInitSetsTheCursors :=
  ⟨rfl, fun _ hs => exec_of_legal .passInit hs⟩

/-- `tx_start` is high in the `TX_START` cycles without reset (R206, R270). -/
theorem txStartOut_iff (s : State) : txStartOut s = true ↔ s.seq = 0x6 ∧ (inputsNow s).rst = false := by
  simp [txStartOut]

/-- The cycle after a `TX_START` cycle without reset is a `TX_WAIT` cycle (R206). -/
theorem step_seq_of_txStartOut {s t : State} (h : step s = .next t) (hs : txStartOut s = true) : t.seq = 0x7 := by
  obtain ⟨hseq, hr⟩ := (txStartOut_iff s).1 hs
  rw [step_next_eq_writesOf h hr hseq (i := .txStart) rfl]
  rfl

/-- The table leads to `TX_START` from `FILL` alone (R206). -/
theorem seq_eq_fill_of_step_txStart {s t : State} (h : step s = .next t) (ht : t.seq = 0x6) : s.seq = 0x5 := by
  obtain ⟨-, ⟨-, rfl⟩ | ⟨hr, -⟩⟩ := step_cases h
  · cases ht
  · have htable := nextStatesAreThoseOfTheTable s t h hr
    simp only [ht, BitVec.ofNat_eq_ofNat, BitVec.reduceEq, false_and, or_self, or_true, imp_false] at htable
    bv_omega

/-- Settles O7: the outputs by their own laws, the pulse's end and its one entry by the transition table. -/
theorem txStartPulsesOnce : Obligations.TxStartPulsesOnce := by
  refine ⟨rfl, fun _ hs => exec_of_legal .txStart hs, txStartOut_iff, txLenOut_toNat, fun s t h hs => ?_,
    fun _ _ => seq_eq_fill_of_step_txStart⟩
  simp [txStartOut, step_seq_of_txStartOut h hs]

end Sys2Proof.Machine
end

section
/-! `TX_WAIT` and the strobe `tx_done`, which no other state samples (R178, R207). -/

namespace Sys2Proof.Machine

/-- The delay after a frame, by the mode code (R178). -/
theorem frameDelay_renderOf (m : Code) (p : Params) :
    frameDelay (renderOf m) p =
      if 8 ≤ m.toNat then none else some (BitVec.ofNat 8 (if m.toNat ≤ 6 then p.breatheDly else p.chaseDly)) := by
  obtain ⟨hm, -, hr⟩ | ⟨rfl, hr⟩ | ⟨hm, -, hr⟩ := renderOf_cases m
  · rw [hr, if_neg (by omega), if_pos hm, frameDelay]
  · rw [hr, if_neg (by decide), if_neg (by decide), frameDelay]
  · rw [hr, if_pos hm, frameDelay]

/-- `TX_WAIT` has the one code 0x7 (R96). -/
theorem decodeSeq_eq_txWait_iff (c : Code) : decodeSeq c = .txWait ↔ c = 0x7 := by
  revert c; decide

/-- A sequencer operation other than `TX_WAIT` does not sample `tx_done` (R207). -/
theorem writesOf_txDone_of_ne_txWait {i : Instr} (hf : i.format = .seq) (hi : i ≠ .txWait) (m : Code) (inp : Inputs)
    (d : Bool) (s : State) : writesOf i m { inp with txDone := d } s = writesOf i m inp s := by
  cases i
  case txWait => exact absurd rfl hi
  case breatheRed | breatheYellow | breatheGreen | breatheCyan | breatheBlue | breathePurple | breatheWhite |
      rainbowChase | off => cases hf
  all_goals rfl

/-- The input values chosen for a cycle are the ones it sees. -/
@[simp] theorem inputsNow_withInputs (s : State) (i : Inputs) : inputsNow (withInputs s i) = i := rfl

/-- What a cycle does beside its operation reads the read address and no other input (R63). -/
theorem passCycle_withInputs_congr (s : State) {i j : Inputs} (ha : i.fbRdAddr = j.fbRdAddr) :
    passCycle (withInputs s i) = passCycle (withInputs s j) := by
  have hread : readAddr (withInputs s i) = readAddr (withInputs s j) := by
    simp only [readAddr, inputsNow_withInputs, ha]; rfl
  unfold passCycle
  rw [hread]
  rfl

/-- A step from chosen inputs, as one equation. -/
theorem step_withInputs (s : State) (i : Inputs) :
    step (withInputs s i) =
      if s.params.legal then
        .next
          (if i.rst then resetRegisters (passCycle (withInputs s i))
           else writesOf (decodeSeq s.seq) s.mode i (passCycle (withInputs s i)))
      else .refused .illegalParameters := by
  unfold step
  rw [inputsNow_withInputs]
  split
  · rfl
  · exact exec_eq_runCycle _ _

/-- Two choices of a cycle's inputs give the same step when reset, the read address and the operation's writes
agree (R244). -/
theorem step_withInputs_congr {s : State} {i j : Inputs} (hr : i.rst = j.rst) (ha : i.fbRdAddr = j.fbRdAddr)
    (hw : ∀ u, writesOf (decodeSeq s.seq) s.mode i u = writesOf (decodeSeq s.seq) s.mode j u) :
    step (withInputs s i) = step (withInputs s j) := by
  rw [step_withInputs, step_withInputs, hr, passCycle_withInputs_congr s ha, hw]

/-- Settles O8: only `TX_WAIT` samples `tx_done`, and there the mode's delay decides where it leads. -/
theorem txWaitWaitsForDone : Obligations.TxWaitWaitsForDone := by
  refine ⟨rfl, fun s i d hs => ?_, fun s hs => ?_⟩
  · have hi : decodeSeq s.seq ≠ .txWait := fun hi => hs ((decodeSeq_eq_txWait_iff _).1 hi)
    exact step_withInputs_congr rfl rfl fun u => writesOf_txDone_of_ne_txWait (decodeSeq_format _) hi ..
  · rw [exec_of_legal _ hs, writesOf, opTxWait, frameDelay_renderOf]
    by_cases hm : 8 ≤ s.mode.toNat
    · simp only [if_pos hm]
    · simp only [if_neg hm]
      rfl

end Sys2Proof.Machine
end

section
/-! `STEP` (R209): the phase step of the mode (R169, R172) and the end of the frame or the pass. -/

namespace Sys2Proof.Machine

/-- The end of a pass (R209). -/
theorem endStep_true (s : State) : endStep true s = { s with mid := false, seq := 0x1 } := rfl

/-- Between two frames of a pass: the next frame, or a poll in mid-pass (R209, R211). -/
theorem endStep_false (s : State) :
    endStep false s =
      if s.params.pollEachFrame = true then { s with mid := true, seq := 0x1 } else { s with seq := 0x5 } := rfl

theorem opStep_off (inp : Inputs) (s : State) : opStep .off inp s = endStep true s := rfl

/-- Settles O10: by the render operation of the mode, whose phase step is written out in R169 or R172. -/
theorem stepMovesThePhase : Obligations.StepMovesThePhase := by
  refine ⟨rfl, fun s hs => ?_⟩
  intro passDone goOn head'
  rw [exec_of_legal _ hs, writesOf]
  obtain ⟨hm, -, hr⟩ | ⟨hm, hr⟩ | ⟨hm, -, hr⟩ := renderOf_cases s.mode
  case inl =>
    rw [hr, if_pos hm, opStep_breathe]
    rfl
  case inr.inl =>
    rw [hr, hm, if_neg (by decide), if_pos (by decide), opStep_chase]
    rfl
  case inr.inr =>
    rw [hr, if_neg (by omega), if_neg (by omega), opStep_off]
    rfl

end Sys2Proof.Machine
end

section
/-! The unused state codes, which `POLL` absorbs in one cycle (R243). -/

namespace Sys2Proof.Machine

/-- The codes 0xA to 0xF are the two rows `UNUSED_SEQ`, with the rows' free bits as operand (R96). -/
theorem decodeSeq_cases_of_unused :
    ∀ c : Code, 0xA ≤ c.toNat →
      decodeSeq c = .unusedSeqA (c.extractLsb' 0 1) ∨ decodeSeq c = .unusedSeqC (c.extractLsb' 0 2) := by
  decide

/-- `tx_start` is low in every state but `TX_START` (R206). -/
theorem txStartOut_eq_false_of_seq_ne {s : State} (h : s.seq ≠ 0x6) : txStartOut s = false :=
  Bool.eq_false_iff.2 fun hout => h ((txStartOut_iff s).1 hout).1

/-- Settles O11: both rows are the one operation `opUnused`, and none of their codes is that of `TX_START`. -/
theorem unusedCodesGoToPoll : Obligations.UnusedCodesGoToPoll := by
  refine ⟨fun c hc => ?decode, fun s hs =>
    ⟨fun x => exec_of_legal (.unusedSeqA x) hs, fun x => exec_of_legal (.unusedSeqC x) hs, fun hseq => ?output⟩⟩
  case decode => exact (decodeSeq_cases_of_unused c hc).imp (fun hA => ⟨_, hA⟩) (fun hC => ⟨_, hC⟩)
  case output => exact txStartOut_eq_false_of_seq_ne (by bv_omega)

end Sys2Proof.Machine
end

section
/-! The reset cycle (spec/70_reset_and_hazards.md R270), and the `CLEAR` cycle after it. -/

namespace Sys2Proof.Machine

/-- A legal cycle with `rst = 1` is the reset cycle, whatever the state and the other inputs (R270). -/
theorem step_of_reset {s : State} (h : s.params.legal = true) (hr : (inputsNow s).rst = true) :
    step s = .next (resetRegisters (passCycle s)) := by
  rw [step, if_pos hr, resetCycle, runCycle_of_legal _ h]

/-- `tx_start` is low in a reset cycle, even in `TX_START` (R270). -/
theorem txStartOut_eq_false_of_reset {s : State} (hr : (inputsNow s).rst = true) : txStartOut s = false := by
  simp [txStartOut, hr]

/-- Without reset, a state with `seq = 0` performs `CLEAR` (R96, R200). -/
theorem step_eq_exec_clear {s : State} (hr : (inputsNow s).rst = false) (hs : s.seq = seqClear) :
    step s = exec .clear s := by
  rw [step_eq_exec hr, hs]
  rfl

/-- Settles O28: the step is the reset cycle, and the state it leads to is in `CLEAR`. -/
theorem resetCycleSetsEveryRegister : Obligations.ResetCycleSetsEveryRegister := fun s hs hr =>
  ⟨txStartOut_eq_false_of_reset hr, resetRegisters (passCycle s), step_of_reset hs hr, rfl, rfl,
    fun hr' => step_eq_exec_clear hr' (resetRegisters_seq _)⟩

end Sys2Proof.Machine
end

section
/-! The codes of the two formats: decoding and encoding are inverse to each other (spec/30_encoding.md R90, R91, R96,
R98), and every code belongs to the row its instruction names. -/

namespace Sys2Proof

/-- An instruction's code decodes to the instruction, its free bits included. -/
theorem decodeCode_encode (i : Instr) : decodeCode i.format (encode i) = i := by
  cases i
  case off x => revert x; decide
  case unusedSeqA x => revert x; decide
  case unusedSeqC x => revert x; decide
  all_goals rfl

/-- A code read in a format is an instruction of that format. -/
theorem decodeCode_format (f : Format) (c : Code) : (decodeCode f c).format = f := by
  cases f <;> revert c <;> decide

/-- No bit of a code is lost in decoding it. -/
theorem encode_decodeCode (f : Format) (c : Code) : encode (decodeCode f c) = c := by
  cases f <;> revert c <;> decide

/-- A byte without a bit above bit 3 is a code (R98). -/
theorem decodeBytes_of_lt (f : Format) {b : Byte} (h : b.toNat < 16) (rest : List Byte) :
    decodeBytes f (b :: rest) = .ok (decodeCode f (b.setWidth 4), rest) := if_pos h

/-- A byte with a bit above bit 3 is no code (R98). -/
theorem decodeBytes_of_ge (f : Format) {b : Byte} (h : 16 ≤ b.toNat) (rest : List Byte) :
    decodeBytes f (b :: rest) = .error (.notACode b) := if_neg (by omega)

/-- A code laid out as a byte is read back as the code. -/
theorem decodeBytes_setWidth (f : Format) (c : Code) (rest : List Byte) :
    decodeBytes f (c.setWidth 8 :: rest) = .ok (decodeCode f c, rest) := by
  have hlow : (c.setWidth 8).setWidth 4 = c := by simp
  rw [decodeBytes_of_lt f (by simp; omega), hlow]

/-- Settles O51: the byte layout over `decodeCode_encode` and `encode_decodeCode`. -/
theorem decodeAndEncodeAgree : Obligations.DecodeAndEncodeAgree := by
  refine ⟨fun i rest => ?_, fun f c => ⟨decodeCode_format f c, encode_decodeCode f c⟩,
    fun f _ rest hb => decodeBytes_of_ge f hb rest⟩
  rw [encodeBytes, List.singleton_append, decodeBytes_setWidth, decodeCode_encode]

/-- Every instruction is in the opcode table, in exactly one row of its format (R91, R96). -/
theorem instr_inTable (i : Instr) : Laws.InTable.Statement i := by
  cases i
  case off x => exact Laws.InTable.off x
  case unusedSeqA x => exact Laws.InTable.unusedSeqA x
  case unusedSeqC x => exact Laws.InTable.unusedSeqC x
  all_goals rfl

/-- Settles O52: a code is that of the instruction it decodes to, and the instruction has exactly one row. -/
theorem everyCodeIsExactlyOneRow : Obligations.EveryCodeIsExactlyOneRow := by
  intro f c
  have hrow := instr_inTable (decodeCode f c)
  rwa [Laws.InTable.Statement, decodeCode_format, encode_decodeCode] at hrow

/-- Settles O50: the nine words are evaluated. -/
theorem codesOfTheTableDecode : Obligations.CodesOfTheTableDecode := by
  refine ⟨rfl, rfl, rfl, rfl, rfl, rfl, rfl, rfl, rfl⟩

end Sys2Proof
end

section
/-! One cycle, read through the mode code or through the sequencer code (spec/43_frame_writer_and_pass_control.md R200;
assumption 6). -/

namespace Sys2Proof.Machine

/-- The operation of a sequencer state while the mode selects the render operation `r` (R200). -/
def seqOp (r : Render) (q : SeqState) : Inputs → State → State :=
  match q with
  | .clear => opClear
  | .poll => opPoll
  | .debounce => opDebounce
  | .confirm => opConfirm
  | .passInit => opPassInit
  | .fill => opFill r
  | .txStart => opTxStart
  | .txWait => opTxWait r
  | .delay => opDelay
  | .step => opStep r
  | .unused => opUnused

theorem opRender_eq_seqOp (r : Render) (inp : Inputs) (s : State) :
    opRender r inp s = seqOp r (seqStateOf s.seq) inp s := by
  unfold opRender; cases seqStateOf s.seq <;> rfl

/-- The operation a state code names is that of the state it stands for (R96). -/
theorem writesOf_decodeSeq (c m : Code) : writesOf (decodeSeq c) m = seqOp (renderOf m) (seqStateOf c) := by
  rcases seqStateOf_cases c with ⟨hc, hq⟩ | ⟨hc, hq⟩ | ⟨hc, hq⟩ | ⟨hc, hq⟩ | ⟨hc, hq⟩ | ⟨hc, hq⟩ | ⟨hc, hq⟩ | ⟨hc, hq⟩ |
    ⟨hc, hq⟩ | ⟨hc, hq⟩ | ⟨hc, hq⟩ <;> rw [hq]
  case inr.inr.inr.inr.inr.inr.inr.inr.inr.inr => exact writesOf_decodeSeq_of_unused hc m
  all_goals subst hc; rfl

/-- The states of a frame are the only ones whose operation depends on the render operation (R200). -/
theorem seqOp_congr_render {q : SeqState} (h : q ∉ [SeqState.fill, .txWait, .step]) (r r' : Render) :
    seqOp r q = seqOp r' q := by
  cases q
  case fill | txWait | step => simp at h
  all_goals rfl

/-- The render operation of a MODE instruction (R91, R93). -/
def renderOfInstr : Instr → Option Render
  | .breatheRed => some (.breathe ⟨true, false, false⟩)
  | .breatheYellow => some (.breathe ⟨true, true, false⟩)
  | .breatheGreen => some (.breathe ⟨false, true, false⟩)
  | .breatheCyan => some (.breathe ⟨false, true, true⟩)
  | .breatheBlue => some (.breathe ⟨false, false, true⟩)
  | .breathePurple => some (.breathe ⟨true, false, true⟩)
  | .breatheWhite => some (.breathe ⟨true, true, true⟩)
  | .rainbowChase => some .chase
  | .off _ => some .off
  | _ => none

theorem renderOfInstr_decodeMode (m : Code) : renderOfInstr (decodeMode m) = some (renderOf m) := by
  revert m; decide

theorem exists_renderOfInstr {i : Instr} (h : i.format = .mode) : ∃ r, renderOfInstr i = some r := by
  cases i
  case breatheRed | breatheYellow | breatheGreen | breatheCyan | breatheBlue | breathePurple | breatheWhite |
      rainbowChase | off => exact ⟨_, rfl⟩
  all_goals cases h

/-- A MODE instruction is the engine's cycle under its render operation (assumption 6). -/
theorem writesOf_of_renderOfInstr {i : Instr} {r : Render} (h : renderOfInstr i = some r) (m : Code) :
    writesOf i m = opRender r := by
  cases i
  case breatheRed | breatheYellow | breatheGreen | breatheCyan | breatheBlue | breathePurple | breatheWhite |
      rainbowChase | off => cases h; rfl
  all_goals cases h

/-- A MODE instruction's cycle and the cycle of the operation in `seq` agree when the state's operation does not depend on
the render operation, or the instruction's render operation is the one `mode` selects. -/
theorem exec_eq_exec_decodeSeq {i : Instr} {s : State} {r : Render} (hi : renderOfInstr i = some r)
    (h : seqOp r (seqStateOf s.seq) = seqOp (renderOf s.mode) (seqStateOf s.seq)) :
    exec i s = exec (decodeSeq s.seq) s := by
  rw [exec_eq_runCycle, exec_eq_runCycle, writesOf_of_renderOfInstr hi, writesOf_decodeSeq]
  simp only [runCycle, opRender_eq_seqOp, passCycle_seq, h]

/-- Settles O16: the instruction `mode` decodes to has the render operation that `FILL`, `TX_WAIT` and `STEP` take. -/
theorem modeAndSeqCodesAgree : Obligations.ModeAndSeqCodesAgree := fun s =>
  exec_eq_exec_decodeSeq (renderOfInstr_decodeMode s.mode) rfl

/-- The three states whose operation depends on the mode are among the five of a frame. -/
theorem seqStateOf_notMem_frame :
    ∀ c : Code, c ∉ [0x5#4, 0x6#4, 0x7#4, 0x8#4, 0x9#4] → seqStateOf c ∉ [SeqState.fill, .txWait, .step] := by
  decide

/-- Settles O15: outside a frame the render operation of the instruction does not matter. -/
theorem modeInstructionsOutsideAFrame : Obligations.ModeInstructionsOutsideAFrame := by
  intro s i hi hs
  obtain ⟨r, hr⟩ := exists_renderOfInstr hi
  exact exec_eq_exec_decodeSeq hr (seqOp_congr_render (seqStateOf_notMem_frame _ hs) _ _)

end Sys2Proof.Machine
end

section
/-! The sequencer's operations, one equation per branch (spec/43_frame_writer_and_pass_control.md R201 to R209,
spec/40_button_sampler.md R122). `POLL`'s and `CONFIRM`'s stand with their obligations above. -/

namespace Sys2Proof.Machine

/-- The frame buffer after a cycle that addresses the pixel `a`, if any, with the value `x`: a pixel outside the strip of
`n` is dropped (R205). -/
def storePixel (n : Nat) (a : Option Nat) (x : Pixel) (m : Memory) : Memory :=
  match a with
  | none => m
  | some i => if i < n then memWritePixel m i x else m

theorem storePixel_of_lt {n i : Nat} (h : i < n) (x : Pixel) (m : Memory) :
    storePixel n (some i) x m = memWritePixel m i x := if_pos h

theorem storePixel_of_ge {n i : Nat} (h : n ≤ i) (x : Pixel) (m : Memory) : storePixel n (some i) x m = m :=
  if_neg (by omega)

/-- A pixel write is a store to the frame buffer. -/
theorem fbWrite_eq (s : State) (i : Nat) (x : Pixel) :
    fbWrite s i x = { s with fb := storePixel s.params.n (some i) x s.fb } := by
  by_cases h : i < s.params.n
  · rw [fbWrite_of_lt h, storePixel_of_lt h]
  · rw [fbWrite_of_ge (by omega), storePixel_of_ge (by omega)]

/-- A cycle that sweeps the strip: it writes the pixel at `fidx`, and moves on or, at the last one, to the state `after`. -/
def sweepCycle (x : Pixel) (after : Code) (s : State) : State :=
  if fillOver s then { fbWrite s s.fidxReg.toNat x with fidx := 0, seq := after }
  else { fbWrite s s.fidxReg.toNat x with fidx := BitVec.ofNat 16 (s.fidxReg.toNat + 1) }

/-- The boot clear sweeps the strip with dark pixels (R201). -/
theorem opClear_eq_sweepCycle (inp : Inputs) (s : State) : opClear inp s = sweepCycle Pixel.black seqPoll s := rfl

/-- In every mode but the chase's, `FILL` sweeps the strip (R203). -/
theorem opFill_eq_sweepCycle {r : Render} (h : r ≠ .chase) (inp : Inputs) (s : State) :
    opFill r inp s = sweepCycle (framePixel r s.params s.phase s.sub) seqTxStart s := by
  cases r
  case chase => exact absurd rfl h
  case breathe | off => rfl

theorem sweepCycle_of_fillOver {s : State} (h : fillOver s) (x : Pixel) (after : Code) :
    sweepCycle x after s =
      { s with fb := storePixel s.params.n (some s.fidxReg.toNat) x s.fb, fidx := 0, seq := after } := by
  rw [sweepCycle, if_pos h, fbWrite_eq]

theorem sweepCycle_of_not_fillOver {s : State} (h : ¬ fillOver s) (x : Pixel) (after : Code) :
    sweepCycle x after s =
      { s with
        fb := storePixel s.params.n (some s.fidxReg.toNat) x s.fb
        fidx := BitVec.ofNat 16 (s.fidxReg.toNat + 1) } := by
  rw [sweepCycle, if_neg h, fbWrite_eq]

/-- The chase's `FILL` writes the head pixel alone (R204). -/
theorem opFill_chase_eq (inp : Inputs) (s : State) :
    opFill .chase inp s =
      { s with
        fb := storePixel s.params.n (some s.headReg.toNat) (framePixel .chase s.params s.phase s.sub) s.fb
        seq := seqTxStart } := by
  simp only [opFill, fillHead, fbWrite_eq]

theorem opWait_of_waitOver {inp : Inputs} {s : State} (ht : inp.tick = true) (h : waitOver s) (after : Code) :
    opWait after inp s = { s with dly := 0, seq := after } := by
  rw [opWait, if_pos ht, if_pos h]

theorem opWait_of_not_waitOver {inp : Inputs} {s : State} (ht : inp.tick = true) (h : ¬ waitOver s) (after : Code) :
    opWait after inp s = { s with dly := BitVec.ofNat 8 (s.dly.toNat - 1) } := by
  rw [opWait, if_pos ht, if_neg h]

theorem opTxWait_of_no_done {inp : Inputs} (h : inp.txDone = false) (r : Render) (s : State) : opTxWait r inp s = s :=
  if_neg (by simp [h])

/-- In a mode without a delay the pass ends with its frame (R178, R207). -/
theorem opTxWait_of_delay_none {inp : Inputs} (h : inp.txDone = true) {r : Render} {s : State}
    (hd : frameDelay r s.params = none) : opTxWait r inp s = { s with seq := seqPoll } := by
  rw [opTxWait, if_pos h, hd]

theorem opTxWait_of_delay_some {inp : Inputs} (h : inp.txDone = true) {r : Render} {s : State} {d : Byte}
    (hd : frameDelay r s.params = some d) : opTxWait r inp s = { s with dly := d, seq := seqDelay } := by
  rw [opTxWait, if_pos h, hd]

/-- The register `mid` after `STEP`: set between two frames in the variant that polls there (R209). -/
def endMid (done : Bool) (p : Params) (mid : Bool) : Bool := !done && (p.pollEachFrame || mid)

/-- The state after `STEP` (R209). -/
def endSeq (done : Bool) (p : Params) : Code := if done || p.pollEachFrame then seqPoll else seqFill

/-- The end of a `STEP` cycle writes `mid` and `seq` alone. -/
theorem endStep_eq (done : Bool) (s : State) :
    endStep done s = { s with mid := endMid done s.params s.mid, seq := endSeq done s.params } := by
  cases done
  · rw [endStep_false, endMid, endSeq]
    cases s.params.pollEachFrame <;> rfl
  · rfl

end Sys2Proof.Machine
end

section
/-! The frame buffer under a cycle: every instruction stores at most the pixel it addresses, and neither that pixel nor any
register depends on the frame buffer or on the read port's register (spec/20_memory.md R60, R72, R205). -/

namespace Sys2Proof.Machine

/-- A store writes nothing, or one pixel inside the strip. -/
theorem storePixel_cases (n : Nat) (a : Option Nat) (x : Pixel) (m : Memory) :
    storePixel n a x m = m ∨ ∃ i, a = some i ∧ i < n ∧ storePixel n a x m = memWritePixel m i x := by
  cases a with
  | none => exact .inl rfl
  | some i =>
    by_cases hi : i < n
    · exact .inr ⟨i, rfl, hi, if_pos hi⟩
    · exact .inl (if_neg hi)

/-- A byte outside the pixel stored reads as before. -/
theorem memRead_storePixel_of_outside {n : Nat} {a : Option Nat} {b : Nat}
    (h : ∀ i, a = some i → i < n → ¬(3 * i ≤ b ∧ b < 3 * i + 3)) (x : Pixel) (m : Memory) :
    memRead (storePixel n a x m) b = memRead m b := by
  obtain hm | ⟨i, ha, hi, hm⟩ := storePixel_cases n a x m
  · rw [hm]
  · have hb := h i ha hi
    rw [hm, memRead_memWritePixel, if_neg (by omega), if_neg (by omega), if_neg (by omega)]

/-- A byte of the pixel stored has been written, with a value that does not depend on what was there before. -/
theorem memRead_storePixel_of_inside {n i b : Nat} (hi : i < n) (h0 : 3 * i ≤ b) (h3 : b < 3 * i + 3) (x : Pixel) :
    ∃ v, ∀ m, memRead (storePixel n (some i) x m) b = some v := by
  simp only [storePixel_of_lt hi, memRead_memWritePixel]
  obtain rfl | rfl | rfl : b = 3 * i ∨ b = 3 * i + 1 ∨ b = 3 * i + 2 := by omega
  · exact ⟨x.g, fun m => by simp⟩
  · exact ⟨x.r, fun m => by simp⟩
  · exact ⟨x.b, fun m => by simp⟩

/-- A store un-lists nothing. -/
theorem memRead_storePixel_isSome {m : Memory} {b : Nat} (h : (memRead m b).isSome = true) (n : Nat) (a : Option Nat)
    (x : Pixel) : (memRead (storePixel n a x m) b).isSome = true := by
  obtain hm | ⟨i, -, -, hm⟩ := storePixel_cases n a x m <;> rw [hm]
  · exact h
  · exact memRead_memWritePixel_isSome h i x

/-- A store keeps the canonical form. -/
theorem storePixel_keeps_wf {m : Memory} (h : Memory.wf m = true) (n : Nat) (a : Option Nat) (x : Pixel) :
    Memory.wf (storePixel n a x m) = true := by
  obtain hm | ⟨i, -, -, hm⟩ := storePixel_cases n a x m <;> rw [hm]
  · exact h
  · exact memWritePixel_keeps_wf h i x

/-- Every channel of a pixel is at most the ceiling `maxB` (R176). -/
def Pixel.AtMost (x : Pixel) (maxB : Nat) : Prop := x.r.toNat ≤ maxB ∧ x.g.toNat ≤ maxB ∧ x.b.toNat ≤ maxB

theorem black_atMost (maxB : Nat) : Pixel.AtMost Pixel.black maxB := by
  simp [Pixel.AtMost]

/-- The pixel a frame writes is clamped (R176). -/
theorem framePixel_atMost (r : Render) (p : Params) (phase : Byte) (sub : BitVec 3) :
    Pixel.AtMost (framePixel r p phase sub) p.maxB :=
  ⟨clampChannel_le .., clampChannel_le .., clampChannel_le ..⟩

/-- A cell of a memory after a store is an old one, or lies in the frame and holds at most the ceiling. -/
theorem mem_storePixel {n : Nat} {a : Option Nat} {x : Pixel} {m : Memory} {c : Host.Cell} {maxB : Nat}
    (h : c ∈ storePixel n a x m) (hx : Pixel.AtMost x maxB) : c ∈ m ∨ (c.1 < 3 * n ∧ c.2.toNat ≤ maxB) := by
  obtain ⟨hr, hg, hb⟩ := hx
  obtain hm | ⟨i, -, hi, hm⟩ := storePixel_cases n a x m <;> rw [hm] at h
  · exact .inl h
  · obtain rfl | rfl | rfl | h := mem_memWritePixel h
    · exact .inr ⟨by dsimp; omega, hg⟩
    · exact .inr ⟨by dsimp; omega, hr⟩
    · exact .inr ⟨by dsimp; omega, hb⟩
    · exact .inl h

/-- The state with other contents of the frame buffer and of the read port's register. -/
def withFrame (s : State) (m : Memory) (q : Byte) : State := { s with fb := m, rdQ := q }

/-- An operation's cycle from `s` stores one pixel at `a` at most, within the ceiling, and reads neither the frame buffer
nor the read port's register. -/
def StoresAt (op : Inputs → State → State) (s : State) (a : Option Nat) : Prop :=
  ∃ x : Pixel, Pixel.AtMost x s.params.maxB ∧ ∀ inp m q,
    op inp (withFrame s m q) = withFrame (op inp s) (storePixel s.params.n a x m) q

/-- An operation that leaves the frame buffer alone stores nothing. -/
theorem storesAt_none {op : Inputs → State → State} {s : State}
    (h : ∀ inp m q, op inp (withFrame s m q) = withFrame (op inp s) m q) : StoresAt op s none :=
  ⟨Pixel.black, black_atMost _, h⟩

/-- The frame buffer after an operation that stores at `a`. -/
theorem StoresAt.fb_eq {op : Inputs → State → State} {s : State} {a : Option Nat} (h : StoresAt op s a) (inp : Inputs) :
    ∃ x : Pixel, Pixel.AtMost x s.params.maxB ∧ (op inp s).fb = storePixel s.params.n a x s.fb := by
  obtain ⟨x, hx, hop⟩ := h
  exact ⟨x, hx, congrArg State.fb (hop inp s.fb s.rdQ)⟩

/-! The operations of the sequencer. -/

theorem sweepCycle_withFrame (x : Pixel) (after : Code) (s : State) (m : Memory) (q : Byte) :
    sweepCycle x after (withFrame s m q) =
      withFrame (sweepCycle x after s) (storePixel s.params.n (some s.fidxReg.toNat) x m) q := by
  by_cases h : fillOver s
  · rw [sweepCycle_of_fillOver h, sweepCycle_of_fillOver (s := withFrame s m q) h]
    rfl
  · rw [sweepCycle_of_not_fillOver h, sweepCycle_of_not_fillOver (s := withFrame s m q) h]
    rfl

theorem opClear_storesAt (s : State) : StoresAt opClear s (some s.fidxReg.toNat) :=
  ⟨Pixel.black, black_atMost _, fun _ => sweepCycle_withFrame Pixel.black seqPoll s⟩

/-- The pixel a `FILL` addresses, by the render operation (R203, R204). -/
def fillAddress (r : Render) (s : State) : Nat := if r = .chase then s.headReg.toNat else s.fidxReg.toNat

theorem opFill_storesAt (r : Render) (s : State) : StoresAt (opFill r) s (some (fillAddress r s)) := by
  refine ⟨framePixel r s.params s.phase s.sub, framePixel_atMost .., fun inp m q => ?_⟩
  by_cases hr : r = .chase
  · subst hr
    rw [opFill_chase_eq, opFill_chase_eq]
    rfl
  · rw [opFill_eq_sweepCycle hr, opFill_eq_sweepCycle hr, fillAddress, if_neg hr]
    exact sweepCycle_withFrame _ _ s m q

theorem opPoll_storesAt (s : State) : StoresAt opPoll s none := by
  refine storesAt_none fun inp m q => ?_
  by_cases h : isCandidate s inp.btn
  · rw [opPoll_of_isCandidate h, opPoll_of_isCandidate (s := withFrame s m q) h]
    rfl
  · rw [opPoll_of_not_isCandidate h, opPoll_of_not_isCandidate (s := withFrame s m q) h]
    rfl

theorem opWait_storesAt (after : Code) (s : State) : StoresAt (opWait after) s none := by
  refine storesAt_none fun inp m q => ?_
  cases ht : inp.tick
  · rw [opWait_of_no_tick _ ht, opWait_of_no_tick _ ht]
  · by_cases h : waitOver s
    · rw [opWait_of_waitOver ht h, opWait_of_waitOver (s := withFrame s m q) ht h]
      rfl
    · rw [opWait_of_not_waitOver ht h, opWait_of_not_waitOver (s := withFrame s m q) ht h]
      rfl

theorem opConfirm_storesAt (s : State) : StoresAt opConfirm s none := by
  refine storesAt_none fun inp m q => ?_
  by_cases h : isEdge s inp.btn
  · rw [opConfirm_of_isEdge h, opConfirm_of_isEdge (s := withFrame s m q) h]
    rfl
  · rw [opConfirm_of_not_isEdge h, opConfirm_of_not_isEdge (s := withFrame s m q) h]
    rfl

theorem opTxWait_storesAt (r : Render) (s : State) : StoresAt (opTxWait r) s none := by
  refine storesAt_none fun inp m q => ?_
  cases h : inp.txDone
  · rw [opTxWait_of_no_done h, opTxWait_of_no_done h]
  · cases hd : frameDelay r s.params with
    | none =>
      rw [opTxWait_of_delay_none h hd, opTxWait_of_delay_none (s := withFrame s m q) h hd]
      rfl
    | some d =>
      rw [opTxWait_of_delay_some h hd, opTxWait_of_delay_some (s := withFrame s m q) h hd]
      rfl

theorem endStep_withFrame (done : Bool) (s : State) (m : Memory) (q : Byte) :
    endStep done (withFrame s m q) = withFrame (endStep done s) m q := by
  rw [endStep_eq, endStep_eq]
  rfl

theorem opStep_storesAt (r : Render) (s : State) : StoresAt (opStep r) s none := by
  refine storesAt_none fun inp m q => ?_
  cases r
  · exact endStep_withFrame _ { s with dir := _, phase := _ } m q
  · exact endStep_withFrame _ { s with phase := _, sub := _, head := _ } m q
  · exact endStep_withFrame true s m q

/-- The pixel addressed in a sequencer state, if any: only `CLEAR` and `FILL` write (R72). -/
def seqAddress (r : Render) (q : SeqState) (s : State) : Option Nat :=
  match q with
  | .clear => some s.fidxReg.toNat
  | .fill => some (fillAddress r s)
  | _ => none

theorem seqOp_storesAt (r : Render) (q : SeqState) (s : State) : StoresAt (seqOp r q) s (seqAddress r q s) := by
  cases q
  case clear => exact opClear_storesAt s
  case poll => exact opPoll_storesAt s
  case debounce => exact opWait_storesAt seqConfirm s
  case confirm => exact opConfirm_storesAt s
  case passInit => exact storesAt_none fun _ _ _ => rfl
  case fill => exact opFill_storesAt r s
  case txStart => exact storesAt_none fun _ _ _ => rfl
  case txWait => exact opTxWait_storesAt r s
  case delay => exact opWait_storesAt seqStep s
  case step => exact opStep_storesAt r s
  case unused => exact storesAt_none fun _ _ _ => rfl

theorem opRender_storesAt (r : Render) (s : State) : StoresAt (opRender r) s (seqAddress r (seqStateOf s.seq) s) := by
  obtain ⟨x, hx, hop⟩ := seqOp_storesAt r (seqStateOf s.seq) s
  refine ⟨x, hx, fun inp m q => ?_⟩
  rw [opRender_eq_seqOp, opRender_eq_seqOp]
  exact hop inp m q

/-- The render operation is the chase's in mode 7 alone (R92). -/
theorem renderOf_eq_chase_iff (m : Code) : renderOf m = .chase ↔ m = 7 := by
  revert m; decide

theorem seqStateOf_eq_clear_iff (c : Code) : seqStateOf c = .clear ↔ c = seqClear := by
  revert c; decide

theorem seqStateOf_eq_fill_iff (c : Code) : seqStateOf c = .fill ↔ c = seqFill := by
  revert c; decide

/-- The address of a cycle under a render operation, by the code in `seq`. -/
theorem seqAddress_seqStateOf (r : Render) (s : State) :
    seqAddress r (seqStateOf s.seq) s =
      if s.seq = seqClear then some s.fidxReg.toNat else if s.seq = seqFill then some (fillAddress r s) else none := by
  simp only [← seqStateOf_eq_clear_iff, ← seqStateOf_eq_fill_iff]
  cases seqStateOf s.seq <;> rfl

/-- A MODE instruction addresses what the operation in `seq` does under its render operation. -/
theorem pixelAddressed_of_renderOfInstr {i : Instr} {r : Render} (h : renderOfInstr i = some r) (s : State) :
    pixelAddressed i s = seqAddress r (seqStateOf s.seq) s := by
  rw [seqAddress_seqStateOf]
  cases i
  case rainbowChase => cases h; rfl
  case breatheRed | breatheYellow | breatheGreen | breatheCyan | breatheBlue | breathePurple | breatheWhite | off =>
    cases h
    by_cases h0 : s.seq = seqClear
    · rw [pixelAddressed, if_pos (.inl h0), if_pos h0]
    · rw [pixelAddressed, if_neg h0]
      simp only [h0, false_or]
      rfl
  all_goals cases h

/-- A `FILL` addresses the head in mode 7 and `fidx` in every other mode. -/
theorem fillAddress_renderOf (s : State) :
    some (fillAddress (renderOf s.mode) s) = pixelAddressed .fill s := by
  simp only [fillAddress, renderOf_eq_chase_iff, pixelAddressed]
  split_ifs <;> rfl

/-- Every instruction stores at most the pixel it addresses. -/
theorem writesOf_storesAt (i : Instr) (s : State) : StoresAt (writesOf i s.mode) s (pixelAddressed i s) := by
  cases i
  case clear => exact opClear_storesAt s
  case poll => exact opPoll_storesAt s
  case debounce => exact opWait_storesAt seqConfirm s
  case confirm => exact opConfirm_storesAt s
  case fill => exact fillAddress_renderOf s ▸ opFill_storesAt (renderOf s.mode) s
  case txWait => exact opTxWait_storesAt _ s
  case delay => exact opWait_storesAt seqStep s
  case step => exact opStep_storesAt _ s
  case passInit | txStart | unusedSeqA | unusedSeqC => exact storesAt_none fun _ _ _ => rfl
  all_goals
    rw [writesOf_of_renderOfInstr rfl, pixelAddressed_of_renderOfInstr rfl]
    exact opRender_storesAt _ s

/-- The frame buffer after any step is the one before it with at most one pixel stored, within the ceiling: a reset cycle
stores none. -/
theorem step_fb_eq {s t : State} (h : step s = .next t) :
    ∃ a x, Pixel.AtMost x s.params.maxB ∧ t.fb = storePixel s.params.n a x s.fb := by
  obtain ⟨-, ⟨-, rfl⟩ | ⟨-, rfl⟩⟩ := step_cases h
  · exact ⟨none, Pixel.black, black_atMost _, rfl⟩
  · exact ⟨_, (writesOf_storesAt (decodeSeq s.seq) (passCycle s)).fb_eq _⟩

/-- Settles O43: a store of one pixel within the ceiling keeps all three parts, wherever the registers point. -/
theorem frameBufferInvariantIsKept : Obligations.FrameBufferInvariantIsKept := by
  intro s t ⟨hwf, haddr⟩ hmax h
  obtain ⟨hp, -, -⟩ := step_time h
  obtain ⟨a, x, hx, hfb⟩ := step_fb_eq h
  have hcells : ∀ c ∈ t.fb, c.1 < 3 * s.params.n ∧ c.2.toNat ≤ s.params.maxB := fun c hc =>
    (mem_storePixel (hfb ▸ hc) hx).elim (fun hold => ⟨haddr c hold, hmax c hold⟩) id
  refine ⟨⟨hfb ▸ storePixel_keeps_wf hwf .., fun c hc => ?_⟩, fun c hc => ?_⟩
  · rw [hp]
    exact (hcells c hc).1
  · rw [hp]
    exact (hcells c hc).2

/-- `CLEAR` is entered by a reset alone (R200, R270). -/
theorem step_seq_ne_clear {s t : State} (h : step s = .next t) (hr : (inputsNow s).rst = false) (hs : s.seq ≠ seqClear) :
    t.seq ≠ seqClear := by
  intro ht
  have htable := nextStatesAreThoseOfTheTable s t h hr
  simp only [ht, BitVec.ofNat_eq_ofNat, BitVec.reduceEq, false_and, or_self, imp_false] at htable
  bv_omega

/-- A sweep's write extends the written part of the frame by the pixel at `fidx`. -/
theorem storePixel_written {n i : Nat} {m : Memory} (h : ∀ a, a < 3 * i → (memRead m a).isSome = true) (x : Pixel) {a : Nat}
    (ha : a < 3 * (i + 1)) (hn : a < 3 * n) : (memRead (storePixel n (some i) x m) a).isSome = true := by
  by_cases hi : a < 3 * i
  · exact memRead_storePixel_isSome (h a hi) ..
  · obtain ⟨v, hv⟩ := memRead_storePixel_of_inside (show i < n by omega) (by omega) ha x
    rw [hv m]; rfl

theorem fidxReg_le_fidx (s : State) : s.fidxReg.toNat ≤ s.fidx.toNat := by
  rw [fidxReg_toNat]; exact Nat.mod_le ..

/-- A `CLEAR` cycle keeps the boot clear's progress. -/
theorem opClear_keeps_cleared {s : State} (hn : s.params.n ≤ 65535) (hseq : s.seq = seqClear) (h : s.cleared)
    (inp : Inputs) : (opClear inp s).cleared := by
  have hle := fidxReg_le_fidx s
  have hold : ∀ a, a < 3 * s.fidxReg.toNat → (memRead s.fb a).isSome = true := fun a ha => h a (by rw [if_pos hseq]; omega)
  rw [opClear_eq_sweepCycle]
  by_cases hover : fillOver s
  · rw [sweepCycle_of_fillOver hover]
    intro a ha
    have hframe : a < 3 * s.params.n := by rwa [if_neg (show seqPoll ≠ seqClear by decide)] at ha
    exact storePixel_written hold _ (by omega) hframe
  · rw [sweepCycle_of_not_fillOver hover]
    intro a ha
    rw [if_pos hseq] at ha
    rw [index_toNat_ofNat (by omega)] at ha
    exact storePixel_written hold _ ha (by omega)

/-- Settles O44: `CLEAR` extends the written part, no store takes from it, and only a reset leads back to `CLEAR`. -/
theorem clearedFrameStaysWritten : Obligations.ClearedFrameStaysWritten := by
  intro s t hs h
  obtain ⟨hlegal, ⟨-, rfl⟩ | ⟨hr, ht⟩⟩ := step_cases h
  · intro a ha
    simp at ha
  by_cases hc : s.seq = seqClear
  · rw [hc] at ht
    have hn := ((Params.legal_iff _).1 hlegal).1.2
    exact ht ▸ opClear_keeps_cleared (s := passCycle s) hn hc hs (inputsNow s)
  · intro a ha
    obtain ⟨b, x, -, hfb⟩ := step_fb_eq h
    rw [if_neg (step_seq_ne_clear h hr hc), (step_time h).1] at ha
    rw [hfb]
    exact memRead_storePixel_isSome (hs a (by rwa [if_neg hc])) ..

/-- Settles O25: a byte outside the pixel addressed is outside every store the instruction makes. -/
theorem everyOtherByteIsUnchanged : Obligations.EveryOtherByteIsUnchanged := by
  intro i s t h a ha
  rw [exec_eq_runCycle] at h
  obtain ⟨-, rfl⟩ := runCycle_next h
  obtain ⟨x, -, hfb⟩ := (writesOf_storesAt i (passCycle s)).fb_eq (inputsNow s)
  rw [show writesOf i s.mode = writesOf i (passCycle s).mode from rfl, hfb]
  exact memRead_storePixel_of_outside (by cases i <;> exact ha) x s.fb

end Sys2Proof.Machine
end

section
/-! What a cycle reads: not the frame buffer (spec/20_memory.md R60), of the inputs only those that its state samples
(spec/60_exceptions.md R244), and the read address into `rd_q` alone (R63, R68). -/

namespace Sys2Proof.Machine

/-- Other contents of the frame buffer change nothing in what a cycle does beside its operation but `rd_q`. -/
theorem passCycle_with_fb (s : State) (m : Memory) :
    passCycle { s with fb := m } = withFrame (passCycle s) m (passCycle { s with fb := m }).rdQ := rfl

/-- Settles O38: the step on the replaced frame buffer is the same step with its one store made to `m`. -/
theorem noOperationReadsTheFrameBuffer : Obligations.NoOperationReadsTheFrameBuffer := by
  intro s t m h
  obtain ⟨hlegal, ⟨hr, rfl⟩ | ⟨hr, rfl⟩⟩ := step_cases h
  · refine ⟨_, step_of_reset (s := { s with fb := m }) hlegal hr, rfl, fun _ => rfl, fun hr' => ?_⟩
    simp [hr] at hr'
  obtain ⟨x, -, hop⟩ := writesOf_storesAt (decodeSeq s.seq) (passCycle s)
  have hstep := step_of_legal (s := { s with fb := m }) hlegal hr
  rw [passCycle_with_fb] at hstep
  have hfb : (writesOf (decodeSeq s.seq) s.mode (inputsNow s) (passCycle s)).fb = _ :=
    congrArg State.fb (hop (inputsNow s) s.fb (passCycle s).rdQ)
  have haddr : pixelAddressed (decodeSeq s.seq) (passCycle s) = pixelAddressed (decodeSeq s.seq) s := by
    cases decodeSeq s.seq <;> rfl
  rw [haddr] at hop hfb
  refine ⟨_, hstep.trans (congrArg _ (hop ..)), rfl, fun hr' => ?_, fun _ a => ⟨fun k hk hn h0 h3 => ?_, fun ha => ?_⟩⟩
  · simp [hr] at hr'
  · obtain ⟨v, hv⟩ := memRead_storePixel_of_inside hn h0 h3 x
    rw [hk] at hfb
    rw [hfb, hk]
    exact (hv _).trans (hv _).symm
  · exact memRead_storePixel_of_outside ha x m

/-- No instruction reads the address on the read port. -/
theorem writesOf_fbRdAddr (i : Instr) (m : Code) (inp : Inputs) (a : ByteAddr) :
    writesOf i m { inp with fbRdAddr := a } = writesOf i m inp := by
  cases i <;> rfl

/-- Another read address changes what the port latches (R63). -/
theorem passCycle_with_fbRdAddr (s : State) (i : Inputs) (a : ByteAddr) :
    passCycle (withInputs s { i with fbRdAddr := a }) =
      withFrame (passCycle (withInputs s i)) s.fb (fbReadByte s (a.toNat % 2 ^ s.params.addrW)) := rfl

/-- An operation that stores at one pixel passes another `rd_q` through. -/
theorem StoresAt.with_rdQ {op : Inputs → State → State} {s : State} {a : Option Nat} (h : StoresAt op s a) (inp : Inputs)
    (q : Byte) : op inp (withFrame s s.fb q) = { op inp s with rdQ := q } := by
  obtain ⟨x, -, hop⟩ := h
  have hfb : storePixel s.params.n a x s.fb = (op inp s).fb := (congrArg State.fb (hop inp s.fb s.rdQ)).symm
  rw [hop, hfb]
  rfl

/-- Settles O37: the new address changes what the port latches, which no operation reads or writes. -/
theorem readsHaveNoSideEffect : Obligations.ReadsHaveNoSideEffect := by
  intro s t i a h
  rw [step_withInputs] at h ⊢
  split at h
  case isFalse => cases h
  case isTrue hlegal =>
    cases h
    have hop := (writesOf_storesAt (decodeSeq s.seq) (passCycle (withInputs s i))).with_rdQ i
    rw [if_pos hlegal, writesOf_fbRdAddr, passCycle_with_fbRdAddr]
    cases hr : i.rst
    · exact congrArg Host.Outcome.next (hop _)
    · rfl

/-- A sequencer operation reads only the inputs its state samples (R244). -/
theorem seqOp_congr_inputs {q : SeqState} {i j : Inputs} (ht : q = .debounce ∨ q = .delay → i.tick = j.tick)
    (hb : q = .poll ∨ q = .confirm → i.btn = j.btn) (hd : q = .txWait → i.txDone = j.txDone) (r : Render) (s : State) :
    seqOp r q i s = seqOp r q j s := by
  cases q
  case poll => simp only [seqOp, opPoll, hb (.inl rfl)]
  case debounce => simp only [seqOp, opDebounce, opWait, ht (.inl rfl)]
  case confirm => simp only [seqOp, opConfirm, hb (.inr rfl)]
  case txWait => simp only [seqOp, opTxWait, hd rfl]
  case delay => simp only [seqOp, opDelay, opWait, ht (.inr rfl)]
  all_goals rfl

/-- The codes of the states that sample an input (R96). -/
theorem seqStateOf_sampling (c : Code) :
    (seqStateOf c = .debounce ∨ seqStateOf c = .delay → c = 0x2 ∨ c = 0x8) ∧
      (seqStateOf c = .poll ∨ seqStateOf c = .confirm → c = 0x1 ∨ c = 0x3) ∧ (seqStateOf c = .txWait → c = 0x7) := by
  revert c; decide

/-- Settles O36: the operation's writes agree, since it samples only the inputs that do. -/
theorem inputsAreSampledOnlyWhereNamed : Obligations.InputsAreSampledOnlyWhereNamed := by
  intro s i j hr ha ht hb hd
  obtain ⟨hwait, hbtn, hdone⟩ := seqStateOf_sampling s.seq
  refine step_withInputs_congr hr ha fun u => ?_
  rw [writesOf_decodeSeq]
  exact seqOp_congr_inputs (ht ∘ hwait) (hb ∘ hbtn) (hd ∘ hdone) _ u

end Sys2Proof.Machine
end

section
/-! The step as a whole: when it answers, what it never changes, and the operation it runs (spec/00_scope.md R8,
spec/43_frame_writer_and_pass_control.md R200, R214, spec/70_reset_and_hazards.md R284). -/

namespace Sys2Proof.Machine

/-- Settles O30: reset and every instruction are one `runCycle`, which refuses the configuration. -/
theorem illegalParametersAreRefused : Obligations.IllegalParametersAreRefused := by
  intro s hs
  have hexec : ∀ i, exec i s = .refused .illegalParameters := fun i => by
    rw [exec_eq_runCycle, runCycle_of_illegal _ hs]
  refine ⟨?_, hexec⟩
  unfold step
  split
  · exact runCycle_of_illegal _ hs
  · exact hexec _

/-- With legal parameters the step answers, with reset or without (R214). -/
theorem exists_step_of_legal {s : State} (h : s.params.legal = true) : ∃ t, step s = .next t := by
  cases hr : (inputsNow s).rst
  · exact ⟨_, step_of_legal h hr⟩
  · exact ⟨_, step_of_reset h hr⟩

/-- Settles O31: a cycle completes unless the parameters are refused. -/
theorem everyStateHasANextState : Obligations.EveryStateHasANextState := fun _ hs =>
  ⟨exists_step_of_legal hs, fun i => ⟨_, exec_of_legal i hs⟩⟩

/-- Settles O32: no operation writes the parameters or the model's own time. -/
theorem parametersNeverChange : Obligations.ParametersNeverChange := by
  refine ⟨fun s t h => ?_, fun i s t h => ?_⟩
  · obtain ⟨hp, -, hc⟩ := step_time h
    exact ⟨hp, hc, inputsAt_after_step h⟩
  · rw [exec_eq_runCycle] at h
    obtain ⟨-, rfl⟩ := runCycle_next h
    exact (writesOf_time i s.mode _ _).1

/-- A cycle whose code `withFetchWord` has placed is one without reset (assumption 5). -/
theorem inputsNow_withFetchWord_rst (s : State) (k w : Nat) : (inputsNow (s.withFetchWord k w)).rst = false := by
  cases h : s.stim <;> simp [inputsNow, inputsAt, State.withFetchWord, h, Inputs.quiet]

/-- A table word that is an instruction is its low four bits, read as a SEQ code (assumption 5). -/
theorem decodeSeq_of_decodeTableWord {w : Nat} {i : Instr} (h : decodeTableWord 8 w = some i) :
    decodeSeq (BitVec.ofNat 4 w) = i := by
  have hbyte : bytesOfNat w (max 1 ((8 + 7) / 8)) = [BitVec.ofNat 8 w] := rfl
  rw [decodeTableWord, hbyte] at h
  by_cases hw : (BitVec.ofNat 8 w).toNat < 16
  · rw [decodeBytes_of_lt _ hw] at h
    have hlow : (BitVec.ofNat 8 w).setWidth 4 = BitVec.ofNat 4 w := by simp
    rw [hlow] at h
    exact Option.some.inj h
  · rw [decodeBytes_of_ge _ (by omega)] at h
    cases h

/-- Settles O27: without reset the step is `exec` of the operation in `seq`, where `withFetchWord` has placed the code. -/
theorem stepRunsTheDecodedOperation : Obligations.StepRunsTheDecodedOperation := by
  refine ⟨fun _ => step_eq_exec, fun s w i h => ?_⟩
  rw [step_eq_exec (inputsNow_withFetchWord_rst s 8 w), ← decodeSeq_of_decodeTableWord h]
  rfl

/-- Settles O29: the index registers are cut to their width, and the reset cycle sets the rest. -/
theorem powerUpNeedsOneResetCycle : Obligations.PowerUpNeedsOneResetCycle :=
  ⟨fun p => ⟨fitIndex_lt p _, fitIndex_lt p _⟩, fun p i hp hi =>
    ⟨_, step_of_reset (s := withInputs (State.powerUp p) i) hp hi, rfl⟩⟩

/-- After reset every register is in its range (R20, R41). -/
theorem resetOf_registersInRange {p : Params} (h : 1 ≤ p.n) : (State.resetOf p).RegistersInRange where
  seq := Nat.zero_le _
  mode := Nat.zero_le _
  phase := Nat.zero_le _
  sub := Nat.zero_le _
  head := h
  fidx := h
  dly := Nat.zero_le _
  mid := fun _ => rfl

/-- Settles O48: the frame buffer lists nothing after reset, and every other invariant is about registers at 0. -/
theorem resetMeetsTheInvariants : Obligations.ResetMeetsTheInvariants := by
  refine ⟨fun p hp => ⟨resetOf_registersInRange ((Params.legal_iff p).1 hp).1.1, ⟨rfl, ?memory⟩, ?ceiling, ?cleared,
    ?widths, fun _ _ => rfl, ?candidate⟩, rfl⟩
  case memory => exact fun c hc => absurd hc List.not_mem_nil
  case ceiling => exact fun c hc => absurd hc List.not_mem_nil
  case cleared => exact fun a ha => absurd ha (Nat.not_lt_zero a)
  case widths => exact ⟨Nat.two_pow_pos _, Nat.two_pow_pos _⟩
  case candidate => rintro (h | h) <;> cases h

/-- Settles O49: the widths are `clog2`, the least exponent, of the strip's sizes. -/
theorem widthsFollowTheStripLength : Obligations.WidthsFollowTheStripLength := by
  intro p
  have hidx : ∀ k, p.idxW ≤ k ↔ 1 ≤ k ∧ p.n ≤ 2 ^ k := fun k => by
    rw [Params.idxW, max_le_iff, clog2_le_iff]
  have haddr : ∀ k, p.addrW ≤ k ↔ 1 ≤ k ∧ 3 * p.n ≤ 2 ^ k := fun k => by
    rw [Params.addrW, max_le_iff, clog2_le_iff]
  have hlen : ∀ k, p.lenW ≤ k ↔ 3 * p.n + 1 ≤ 2 ^ k := fun k => clog2_le_iff _ k
  refine ⟨hidx, haddr, hlen, fun hp => ?_⟩
  obtain ⟨-, hn⟩ := ((Params.legal_iff p).1 hp).1
  rw [hidx, haddr, hlen]
  omega

/-- The bytes `0..3n-1`, three at a time. -/
theorem map_range_three_mul {α : Type} (f : Nat → α) (n : Nat) :
    (List.range (3 * n)).map f = (List.range n).flatMap fun i => [f (3 * i), f (3 * i + 1), f (3 * i + 2)] := by
  induction n with
  | zero => rfl
  | succ n ih =>
    rw [List.range_succ, List.flatMap_append, ← ih, show 3 * (n + 1) = 3 * n + 1 + 1 + 1 by omega, List.range_succ,
      List.range_succ, List.range_succ]
    simp

/-- Settles O23: pixel `i` is the bytes `3i` to `3i + 2` of the view, all of them inside the frame. -/
theorem wireBytesAreGreenRedBlue : Obligations.WireBytesAreGreenRedBlue := by
  intro s
  have hbytes : wireBytes s = (List.range (3 * s.params.n)).map (memByte s.fb) :=
    List.map_congr_left fun a ha => fbReadByte_of_lt (List.mem_range.1 ha)
  rw [hbytes, map_range_three_mul, snapshot, List.flatMap_map]
  rfl

end Sys2Proof.Machine
end

section
/-! The colour of a frame and the clamp (spec/42_animation_engine.md R160, R161, R171, R175, R176). -/

namespace Sys2Proof.Machine

/-- The clamp of a channel is its minimum with the ceiling (R176). -/
theorem clampChannel_toNat (p : Params) (v : Byte) : (clampChannel p v).toNat = min v.toNat p.maxB := by
  have := (min_le_left v.toNat p.maxB).trans_lt v.isLt
  simpa [clampChannel] using this

theorem clampChannel_of_le {p : Params} {v : Byte} (h : v.toNat ≤ p.maxB) : clampChannel p v = v :=
  BitVec.eq_of_toNat_eq (by rw [clampChannel_toNat, min_eq_left h])

@[simp] theorem clampChannel_zero (p : Params) : clampChannel p 0#8 = 0#8 := clampChannel_of_le (Nat.zero_le _)

/-- The clamp changes no pixel whose channels are in range. -/
theorem clamp_of_atMost {p : Params} {x : Pixel} (h : Pixel.AtMost x p.maxB) : clamp p x = x := by
  obtain ⟨hr, hg, hb⟩ := h
  rw [clamp, clampChannel_of_le hr, clampChannel_of_le hg, clampChannel_of_le hb]

theorem toNat_ofNat_le_of_le {w k m : Nat} (h : k ≤ m) : (BitVec.ofNat w k).toNat ≤ m := by
  rw [BitVec.toNat_ofNat]
  exact (Nat.mod_le ..).trans h

/-- The ceiling is in range, as a channel value. -/
theorem maxByte_toNat_le (p : Params) : p.maxByte.toNat ≤ p.maxB := toNat_ofNat_le_of_le le_rfl

/-- A falling ramp is in range, whatever its phase (R11). -/
theorem fallValue_toNat_le (p : Params) (k : Byte) : (fallValue p k).toNat ≤ p.maxB :=
  toNat_ofNat_le_of_le (Nat.sub_le ..)

theorem rampChannel_toNat_le (ramps : Bool) (v : Byte) : (rampChannel ramps v).toNat ≤ v.toNat := by
  cases ramps <;> simp [rampChannel]

/-- A sub-phase register holds one of the six sub-phases, or a value that no rule writes (R25). -/
theorem sub_cases (k : BitVec 3) : k = 0 ∨ k = 1 ∨ k = 2 ∨ k = 3 ∨ k = 4 ∨ k = 5 ∨ k = 6 ∨ k = 7 := by
  revert k; decide

theorem chaseColour_atMost {p : Params} {v : Byte} (hv : v.toNat ≤ p.maxB) (k : BitVec 3) :
    Pixel.AtMost (chaseColour p v k) p.maxB := by
  have htop := maxByte_toNat_le p
  have hfall := fallValue_toNat_le p v
  have hzero : (0 : Byte).toNat ≤ p.maxB := Nat.zero_le _
  obtain rfl | rfl | rfl | rfl | rfl | rfl | rfl | rfl := sub_cases k
  · exact ⟨htop, hv, hzero⟩
  · exact ⟨hfall, htop, hzero⟩
  · exact ⟨hzero, htop, hv⟩
  · exact ⟨hzero, hfall, htop⟩
  · exact ⟨hv, hzero, htop⟩
  · exact ⟨htop, hzero, hfall⟩
  · exact black_atMost _
  · exact black_atMost _

/-- From a phase in range no colour exceeds the ceiling (R176). -/
theorem colour_atMost (r : Render) {p : Params} {v : Byte} (hv : v.toNat ≤ p.maxB) (k : BitVec 3) :
    Pixel.AtMost (colour r p v k) p.maxB := by
  cases r
  case breathe mask =>
    exact ⟨(rampChannel_toNat_le mask.r v).trans hv, (rampChannel_toNat_le mask.g v).trans hv,
      (rampChannel_toNat_le mask.b v).trans hv⟩
  case chase => exact chaseColour_atMost hv k
  case off => exact black_atMost _

/-- Settles O18: the colour from a phase in range is in range, and the clamp is the minimum. -/
theorem clampOnlyActsOutOfRange : Obligations.ClampOnlyActsOutOfRange := fun _ p _ k _ =>
  ⟨fun hv => clamp_of_atMost (colour_atMost _ hv k), fun x =>
    ⟨clampChannel_toNat p x.r, clampChannel_toNat p x.g, clampChannel_toNat p x.b⟩⟩

/-- A breathe frame shows the clamped phase in the channels of its hue (R161). -/
theorem framePixel_breathe (mask : HueMask) (p : Params) (v : Byte) (k : BitVec 3) :
    framePixel (.breathe mask) p v k =
      ⟨rampChannel mask.r (clampChannel p v), rampChannel mask.g (clampChannel p v),
        rampChannel mask.b (clampChannel p v)⟩ := by
  have hramp : ∀ b, clampChannel p (rampChannel b v) = rampChannel b (clampChannel p v) := fun b => by
    cases b
    · exact clampChannel_zero p
    · rfl
  simp only [framePixel, colour, breatheColour, clamp, hramp]

/-- A chase frame shows a ceiling channel, a clamped rising or a falling one, and a dark one; a sub-phase that no rule writes
is dark (R171). -/
theorem framePixel_chase (p : Params) (v : Byte) (k : BitVec 3) :
    framePixel .chase p v k =
      if k = 0 then ⟨p.maxByte, clampChannel p v, 0⟩ else if k = 1 then ⟨fallValue p v, p.maxByte, 0⟩
      else if k = 2 then ⟨0, p.maxByte, clampChannel p v⟩ else if k = 3 then ⟨0, fallValue p v, p.maxByte⟩
      else if k = 4 then ⟨clampChannel p v, 0, p.maxByte⟩ else if k = 5 then ⟨p.maxByte, 0, fallValue p v⟩
      else Pixel.black := by
  have htop := clampChannel_of_le (maxByte_toNat_le p)
  have hfall := clampChannel_of_le (fallValue_toNat_le p v)
  obtain rfl | rfl | rfl | rfl | rfl | rfl | rfl | rfl := sub_cases k <;>
    simp [framePixel, colour, chaseColour, clamp, htop, hfall]

/-- An off frame is dark (R175). -/
theorem framePixel_off (p : Params) (v : Byte) (k : BitVec 3) : framePixel .off p v k = Pixel.black :=
  clamp_of_atMost (black_atMost _)

/-- Settles O17: each mode code's render operation, and its pixel. -/
theorem frameColours : Obligations.FrameColours := by
  intro p v k _
  refine ⟨framePixel_breathe ⟨true, false, false⟩ p v k, framePixel_breathe ⟨true, true, false⟩ p v k,
    framePixel_breathe ⟨false, true, false⟩ p v k, framePixel_breathe ⟨false, true, true⟩ p v k,
    framePixel_breathe ⟨false, false, true⟩ p v k, framePixel_breathe ⟨true, false, true⟩ p v k,
    framePixel_breathe ⟨true, true, true⟩ p v k, framePixel_chase p v 0, framePixel_chase p v 1, framePixel_chase p v 2,
    framePixel_chase p v 3, framePixel_chase p v 4, framePixel_chase p v 5, framePixel_chase p v 6,
    framePixel_chase p v 7, fun m hm => ?_⟩
  rw [(renderOf_eq_off_iff m).2 hm]
  exact framePixel_off p v k

end Sys2Proof.Machine
end

section
/-! The sequencer's operations that every mode shares, each instruction's whole next state (R122, R201, R203, R204, R208). -/

namespace Sys2Proof.Machine

/-- Settles O1: the register writes of `CLEAR`, in a completed cycle. -/
theorem clearWritesOneDarkPixel : Obligations.ClearWritesOneDarkPixel :=
  ⟨rfl, fun _ hs => exec_of_legal .clear hs⟩

/-- Settles O3: `DEBOUNCE` is the wait that leads to `CONFIRM`. -/
theorem debounceCountsOneTick : Obligations.DebounceCountsOneTick :=
  ⟨rfl, fun _ hs => exec_of_legal .debounce hs⟩

/-- Settles O9: `DELAY` is the wait that leads to `STEP`. -/
theorem delayCountsOneTick : Obligations.DelayCountsOneTick :=
  ⟨rfl, fun _ hs => exec_of_legal .delay hs⟩

/-- Settles O6: in mode 7 the head pixel alone, in any other mode a sweep of the strip. -/
theorem fillWritesOnePixel : Obligations.FillWritesOnePixel := by
  refine ⟨rfl, fun s hs => ?_⟩
  rw [exec_of_legal _ hs, writesOf]
  dsimp only
  by_cases hm : s.mode = 7
  · rw [if_pos hm, (renderOf_eq_chase_iff _).2 hm]
    rfl
  · rw [if_neg hm, opFill_eq_sweepCycle (mt (renderOf_eq_chase_iff _).1 hm)]
    rfl

end Sys2Proof.Machine
end

section
/-! The MODE instructions, in each cycle of their frame (spec/42_animation_engine.md R162 to R175; assumption 6). -/

namespace Sys2Proof.Machine

/-- A MODE instruction's cycle is the operation of the state that `seq` stands for, under its render operation. -/
theorem exec_of_renderOfInstr {i : Instr} {r : Render} (hi : renderOfInstr i = some r) {s : State}
    (hs : s.params.legal = true) {c : Code} (hc : s.seq = c) :
    exec i s = .next (seqOp r (seqStateOf c) (inputsNow s) (passCycle s)) := by
  rw [exec_of_legal _ hs, writesOf_of_renderOfInstr hi, opRender_eq_seqOp, passCycle_seq, hc]

/-- A MODE instruction in `DELAY` counts the delay (R208). -/
theorem exec_eq_exec_delay {i : Instr} {r : Render} (hi : renderOfInstr i = some r) {s : State}
    (hs : s.params.legal = true) (hc : s.seq = 0x8) : exec i s = exec .delay s := by
  rw [exec_of_renderOfInstr hi hs hc, exec_of_legal _ hs]
  rfl

/-- A channel of the hue mask as a factor of the phase. -/
theorem rampChannel_clampChannel (p : Params) (b : Bool) (v : Byte) :
    rampChannel b (clampChannel p v) = BitVec.ofNat 8 (min (b.toNat * v.toNat) p.maxB) := by
  cases b <;> simp [rampChannel, clampChannel]

/-- Settles O12: the seven masks, and the operation of each state of the frame under a breathe mask. -/
theorem breatheInstructionsRunTheirFrame : Obligations.BreatheInstructionsRunTheirFrame := by
  refine ⟨by decide, fun s hs row hrow => ?_⟩
  obtain ⟨mask, hi, hlevels⟩ : ∃ mask : HueMask,
      renderOfInstr row.1 = some (.breathe mask) ∧ row.2 = (mask.r.toNat, mask.g.toNat, mask.b.toNat) := by
    simp only [List.mem_cons, List.not_mem_nil, or_false] at hrow
    obtain rfl | rfl | rfl | rfl | rfl | rfl | rfl := hrow <;> exact ⟨_, rfl, rfl⟩
  rw [hlevels]
  intro level goOn
  refine ⟨fun hc => ?fill, fun hc => ?txStart, fun hc => ?txWait, exec_eq_exec_delay hi hs, fun hc => ?step⟩
  case fill =>
    have hpixel : framePixel (.breathe mask) s.params s.phase s.sub =
        ⟨level mask.r.toNat, level mask.g.toNat, level mask.b.toNat⟩ := by
      simp only [framePixel_breathe, rampChannel_clampChannel, level]
    rw [exec_of_renderOfInstr hi hs hc, ← hpixel]
    rfl
  case txStart => exact exec_of_renderOfInstr hi hs hc
  case txWait => exact exec_of_renderOfInstr hi hs hc
  case step =>
    rw [exec_of_renderOfInstr hi hs hc]
    exact congrArg _ (opStep_breathe mask (inputsNow s) (passCycle s))

/-- Settles O13: the operation of each state of the frame under the chase. -/
theorem rainbowChaseRunsItsFrame : Obligations.RainbowChaseRunsItsFrame := by
  refine ⟨rfl, fun s hs => ?_⟩
  intro top rise fall x goOn head'
  have hi : renderOfInstr .rainbowChase = some .chase := rfl
  refine ⟨fun hc => ?fill, fun hc => ?txStart, fun hc => ?txWait, exec_eq_exec_delay hi hs, fun hc => ?step⟩
  case fill =>
    rw [exec_of_renderOfInstr hi hs hc, show x = _ from (framePixel_chase s.params s.phase s.sub).symm]
    rfl
  case txStart => exact exec_of_renderOfInstr hi hs hc
  case txWait => exact exec_of_renderOfInstr hi hs hc
  case step =>
    rw [exec_of_renderOfInstr hi hs hc]
    exact congrArg _ (opStep_chase (inputsNow s) (passCycle s))

/-- Settles O14: the operation of each state of the frame under the off fallback. -/
theorem offShowsOneDarkFrame : Obligations.OffShowsOneDarkFrame := by
  refine ⟨fun c hc => ?decode, fun s x hs => ?_⟩
  case decode => revert c; decide
  have hi : renderOfInstr (.off x) = some .off := rfl
  refine ⟨fun hc => ?fill, fun hc => ?txStart, fun hc => ?txWait, exec_eq_exec_delay hi hs, fun hc => ?step⟩
  case fill =>
    rw [exec_of_renderOfInstr hi hs hc, show (⟨0, 0, 0⟩ : Pixel) = _ from (framePixel_off s.params s.phase s.sub).symm]
    rfl
  case txStart => exact exec_of_renderOfInstr hi hs hc
  case txWait => exact exec_of_renderOfInstr hi hs hc
  case step => exact exec_of_renderOfInstr hi hs hc

end Sys2Proof.Machine
end

section
/-! The phase cursors over a whole pass, and the modes under repeated advances (spec/42_animation_engine.md R169, R170, R172,
R173, spec/41_mode_sequencer.md R140, R141). -/

namespace Sys2Proof.Machine

/-- One advance of a mode in `0..7` is a step round the eight modes (R140). -/
theorem nextMode_toNat : ∀ m : Code, m.toNat ≤ 7 → (nextMode m).toNat = (m.toNat + 1) % 8 := by
  decide

/-- An out-of-range mode advances to mode 0 (R140). -/
theorem nextMode_of_ge : ∀ m : Code, 8 ≤ m.toNat → nextMode m = 0 := by
  decide

theorem nextMode_iterate_toNat {m : Code} (hm : m.toNat ≤ 7) (k : Nat) : (nextMode^[k] m).toNat = (m.toNat + k) % 8 := by
  induction k with
  | zero => rw [Function.iterate_zero_apply, Nat.add_zero, Nat.mod_eq_of_lt (by omega)]
  | succ k ih =>
    rw [Function.iterate_succ_apply', nextMode_toNat _ (by omega), ih]
    omega

/-- Settles O19: an out-of-range mode is mode 0 after its first advance. -/
theorem advancesCycleThroughTheModes : Obligations.AdvancesCycleThroughTheModes := by
  refine ⟨fun m k hm => nextMode_iterate_toNat hm k, fun m k hm hk => ?_⟩
  obtain ⟨k, rfl⟩ := Nat.exists_eq_add_of_le' hk
  rw [Function.iterate_succ_apply, nextMode_of_ge m hm, nextMode_iterate_toNat (by decide)]
  simp

theorem byte_toNat_ofNat {x : Nat} (h : x < 256) : (BitVec.ofNat 8 x).toNat = x := by
  simp; omega

/-! A breathe pass (R170). -/

theorem breatheStep_up {p : Params} {phase : Byte} (h : phase.toNat < p.maxB) :
    breatheStep p false phase = ⟨false, BitVec.ofNat 8 (phase.toNat + 1), false⟩ := by
  rw [breatheStep, if_pos rfl, if_neg (by omega)]

theorem breatheStep_turn {p : Params} {phase : Byte} (h : p.maxB ≤ phase.toNat) :
    breatheStep p false phase = ⟨true, BitVec.ofNat 8 (p.maxB - 1), false⟩ := by
  rw [breatheStep, if_pos rfl, if_pos h]

theorem breatheStep_down {p : Params} {phase : Byte} (h : phase.toNat ≠ 0) :
    breatheStep p true phase = ⟨true, BitVec.ofNat 8 (phase.toNat - 1), false⟩ := by
  rw [breatheStep, if_neg (by decide), if_neg h]

/-- The cursors of frame `j` of a breathe pass: up to the ceiling, and down again. -/
def breatheAt (p : Params) (j : Nat) : BreatheNext :=
  ⟨decide (p.maxB < j), BitVec.ofNat 8 (if j ≤ p.maxB then j else 2 * p.maxB - j), false⟩

theorem breatheAt_phase {p : Params} (h : p.maxB ≤ 255) (j : Nat) :
    (breatheAt p j).phase.toNat = if j ≤ p.maxB then j else 2 * p.maxB - j :=
  byte_toNat_ofNat (by split <;> omega)

/-- One breathe step leads from each frame of the pass to the next. -/
theorem breatheStep_breatheAt {p : Params} (h1 : 1 ≤ p.maxB) (h255 : p.maxB ≤ 255) {j : Nat} (hj : j < 2 * p.maxB) :
    breatheStep p (breatheAt p j).dir (breatheAt p j).phase = breatheAt p (j + 1) := by
  have hphase := breatheAt_phase h255 j
  obtain hlt | rfl | hgt := Nat.lt_trichotomy j p.maxB
  · rw [if_pos hlt.le] at hphase
    rw [show (breatheAt p j).dir = false from decide_eq_false (by omega), breatheStep_up (by omega), hphase, breatheAt,
      decide_eq_false (by omega), if_pos (by omega)]
  · rw [if_pos le_rfl] at hphase
    rw [show (breatheAt p p.maxB).dir = false from decide_eq_false (by omega), breatheStep_turn (by omega), breatheAt,
      decide_eq_true (by omega), if_neg (by omega), show 2 * p.maxB - (p.maxB + 1) = p.maxB - 1 by omega]
  · rw [if_neg (by omega)] at hphase
    rw [show (breatheAt p j).dir = true from decide_eq_true hgt, breatheStep_down (by omega), hphase, breatheAt,
      decide_eq_true (by omega), if_neg (by omega), Nat.sub_sub]

/-- Settles O20: frame `j` has the cursors `breatheAt p j`, and the step after the last one ends the pass. -/
theorem breathePassRampsUpAndDown : Obligations.BreathePassRampsUpAndDown := by
  intro p hp after
  obtain ⟨-, ⟨h1, h255⟩, -⟩ := (Params.legal_iff p).1 hp
  have hafter : ∀ j ≤ 2 * p.maxB, after j = breatheAt p j := by
    intro j hj
    induction j with
    | zero => simp [after, breatheAt]
    | succ j ih =>
      rw [← breatheStep_breatheAt h1 h255 (by omega), ← ih (by omega)]
      exact Function.iterate_succ_apply' ..
  have hlast : after (2 * p.maxB + 1) = ⟨true, 0, true⟩ := by
    have hstep : after (2 * p.maxB + 1) = breatheStep p (after (2 * p.maxB)).dir (after (2 * p.maxB)).phase :=
      Function.iterate_succ_apply' ..
    have hphase := breatheAt_phase h255 (2 * p.maxB)
    rw [if_neg (by omega), Nat.sub_self, byte_toNat_eq_zero] at hphase
    rw [hstep, hafter _ le_rfl, hphase, show (breatheAt p (2 * p.maxB)).dir = true from decide_eq_true (by omega)]
    rfl
  refine ⟨fun j hj => ?_, by rw [hlast], by rw [hlast]⟩
  rw [hafter j hj]
  exact ⟨breatheAt_phase h255 j, rfl, rfl⟩

/-! A chase pass (R173). -/

/-- The head moves round the strip by one pixel (R172). -/
theorem nextHead_toNat {p : Params} (hn : p.n ≤ 65535) {head : Index} (h : head.toNat < p.n) :
    (nextHead p head).toNat = (head.toNat + 1) % p.n := by
  unfold nextHead
  split
  · rw [show head.toNat + 1 = p.n by omega, Nat.mod_self]; rfl
  · rw [index_toNat_ofNat (by omega), Nat.mod_eq_of_lt (by omega)]

theorem chaseStep_within {p : Params} {phase : Byte} (h : phase.toNat < p.maxB - 1) (sub : BitVec 3) (head : Index) :
    chaseStep p phase sub head = ⟨BitVec.ofNat 8 (phase.toNat + 1), sub, nextHead p head, false⟩ := by
  rw [chaseStep, if_neg (by omega)]

theorem chaseStep_nextSub {p : Params} {phase : Byte} (h : p.maxB - 1 ≤ phase.toNat) {sub : BitVec 3} (hs : sub.toNat < 5)
    (head : Index) :
    chaseStep p phase sub head = ⟨0, BitVec.ofNat 3 (sub.toNat + 1), nextHead p head, false⟩ := by
  rw [chaseStep, if_pos h, if_neg (by omega)]

theorem chaseStep_done {p : Params} {phase : Byte} (h : p.maxB - 1 ≤ phase.toNat) {sub : BitVec 3} (hs : 5 ≤ sub.toNat)
    (head : Index) : chaseStep p phase sub head = ⟨0, 0, nextHead p head, true⟩ := by
  rw [chaseStep, if_pos h, if_pos hs]

/-- The cursors `q` are those of frame `j` of a chase pass that began with the head at `h`. -/
structure ChaseAt (p : Params) (h j : Nat) (q : ChaseNext) : Prop where
  sub : q.sub.toNat = j / p.maxB
  phase : q.phase.toNat = j % p.maxB
  head : q.head.toNat = (h + j) % p.n
  done : q.done = false

/-- A chase step moves the head on, whatever else it does. -/
theorem chaseStep_head (p : Params) (phase : Byte) (sub : BitVec 3) (head : Index) :
    (chaseStep p phase sub head).head = nextHead p head := by
  unfold chaseStep; split_ifs <;> rfl

theorem ChaseAt.step_head {p : Params} {h j : Nat} {q : ChaseNext} (hq : ChaseAt p h j q) (h1 : 1 ≤ p.n) (hn : p.n ≤ 65535) :
    (chaseStep p q.phase q.sub q.head).head.toNat = (h + (j + 1)) % p.n := by
  have hlt : q.head.toNat < p.n := hq.head ▸ Nat.mod_lt _ (by omega)
  rw [chaseStep_head, nextHead_toNat hn hlt, hq.head, Nat.mod_add_mod, Nat.add_assoc]

/-- One chase step leads from each frame of the pass to the next. -/
theorem ChaseAt.step {p : Params} {h j : Nat} {q : ChaseNext} (hq : ChaseAt p h j q) (hp : p.legal = true)
    (hj : j + 1 < 6 * p.maxB) : ChaseAt p h (j + 1) (chaseStep p q.phase q.sub q.head) := by
  obtain ⟨⟨hn1, hn⟩, ⟨h1, h255⟩, -⟩ := (Params.legal_iff p).1 hp
  have hhead := hq.step_head hn1 hn
  have hmod := Nat.mod_lt j h1
  have hdiv := Nat.div_add_mod j p.maxB
  by_cases hlast : j % p.maxB < p.maxB - 1
  · obtain ⟨hd, hm⟩ := (Nat.div_mod_unique h1 (a := j + 1) (d := j / p.maxB) (c := j % p.maxB + 1)).2 (by omega)
    rw [chaseStep_within (by rwa [hq.phase])] at hhead ⊢
    exact ⟨by rw [hd]; exact hq.sub, by rw [hm, hq.phase, byte_toNat_ofNat (by omega)], hhead, rfl⟩
  · obtain ⟨hd, hm⟩ := (Nat.div_mod_unique h1 (a := j + 1) (d := j / p.maxB + 1) (c := 0)).2
      (by rw [Nat.mul_add]; omega)
    have hsub : q.sub.toNat < 5 := by
      have : (j + 1) / p.maxB < 6 := Nat.div_lt_of_lt_mul (by rwa [Nat.mul_comm])
      rw [hq.sub]; omega
    rw [chaseStep_nextSub (by rw [hq.phase]; omega) hsub] at hhead ⊢
    exact ⟨by rw [hd, ← hq.sub]; simp; omega, by rw [hm]; rfl, hhead, rfl⟩

/-- The step after the last frame of a chase pass ends it. -/
theorem ChaseAt.step_last {p : Params} {h j : Nat} {q : ChaseNext} (hq : ChaseAt p h j q) (h1 : 1 ≤ p.maxB)
    (hj : j + 1 = 6 * p.maxB) :
    chaseStep p q.phase q.sub q.head = ⟨0, 0, nextHead p q.head, true⟩ := by
  obtain ⟨hd, hm⟩ := (Nat.div_mod_unique h1 (a := j) (d := 5) (c := p.maxB - 1)).2 (by omega)
  exact chaseStep_done (by rw [hq.phase, hm]) (by rw [hq.sub, hd]) _

/-- Settles O21: frame `j` has the cursors `ChaseAt p h j`, and the step after the last one ends the pass. -/
theorem chasePassVisitsSixSubPhases : Obligations.ChasePassVisitsSixSubPhases := by
  intro p h hp hh after
  obtain ⟨⟨hn1, hn⟩, ⟨h1, -⟩, -⟩ := (Params.legal_iff p).1 hp
  have hsucc : ∀ j, after (j + 1) = chaseStep p (after j).phase (after j).sub (after j).head := fun j =>
    Function.iterate_succ_apply' ..
  have hafter : ∀ j < 6 * p.maxB, ChaseAt p h.toNat j (after j) := by
    intro j hj
    induction j with
    | zero => exact ⟨by simp [after], by simp [after], by simpa [after] using (Nat.mod_eq_of_lt hh).symm, rfl⟩
    | succ j ih => exact hsucc j ▸ (ih (by omega)).step hp hj
  obtain ⟨j, hj⟩ : ∃ j, j + 1 = 6 * p.maxB := ⟨6 * p.maxB - 1, by omega⟩
  have hq := hafter j (by omega)
  have hhead := hq.step_head hn1 hn
  rw [← hj]
  refine ⟨fun i hi => ?_, ?_⟩
  · obtain ⟨hsub, hphase, hhead, hdone⟩ := hafter i (by omega)
    exact ⟨hsub, hphase, hhead, hdone⟩
  · rw [hsucc]
    rw [hq.step_last h1 hj] at hhead ⊢
    exact ⟨rfl, rfl, rfl, hhead⟩

end Sys2Proof.Machine
end

section
/-! What a cycle without reset can do, said once, as the list of its outcomes; and the invariants of the registers
(spec/10_state.md R26, R29, R31, R41, spec/40_button_sampler.md R123, R126). -/

namespace Sys2Proof.Machine

/-- The outcomes of a cycle without reset: the condition, the state it is taken in, and the next state as register writes.
`s` is the state after the read port's latch and the passing of the cycle. -/
inductive CycleTo (inp : Inputs) (s : State) : State → Prop
  | sweepNext (x : Pixel) (hseq : s.seq = seqClear ∨ s.seq = seqFill ∧ s.mode ≠ 7) (h : ¬ fillOver s) :
      CycleTo inp s
        { s with
          fb := storePixel s.params.n (some s.fidxReg.toNat) x s.fb
          fidx := BitVec.ofNat 16 (s.fidxReg.toNat + 1) }
  | sweepEnd (x : Pixel) (after : Code) (hafter : after = seqPoll ∨ after = seqTxStart) (h : fillOver s) :
      CycleTo inp s
        { s with fb := storePixel s.params.n (some s.fidxReg.toNat) x s.fb, fidx := 0, seq := after }
  | pollCandidate (hseq : s.seq = seqPoll) (h : isCandidate s inp.btn) :
      CycleTo inp s
        { s with btnCand := inp.btn, dly := BitVec.ofNat 8 s.params.debounceTicks, seq := seqDebounce }
  | pollReturn (hseq : s.seq = seqPoll) (h : ¬ isCandidate s inp.btn) :
      CycleTo inp s
        { s with
          btnCand := inp.btn, btnAcc := if releasesAccepted s inp.btn then btnIdle else s.btnAcc
          seq := pollReturn s, mid := false }
  | waiting (hseq : s.seq = seqDebounce ∨ s.seq = seqDelay ∨ s.seq = seqTxWait) : CycleTo inp s s
  | waitTick (hseq : s.seq = seqDebounce ∨ s.seq = seqDelay) (h : ¬ waitOver s) :
      CycleTo inp s { s with dly := BitVec.ofNat 8 (s.dly.toNat - 1) }
  | debounceEnd (hseq : s.seq = seqDebounce) (h : waitOver s) : CycleTo inp s { s with dly := 0, seq := seqConfirm }
  | delayEnd (hseq : s.seq = seqDelay) (h : waitOver s) : CycleTo inp s { s with dly := 0, seq := seqStep }
  | confirmEdge (hseq : s.seq = seqConfirm) (h : isEdge s inp.btn) :
      CycleTo inp s
        { s with
          mode := nextMode s.mode, head := 0, btnCand := inp.btn, btnAcc := inp.btn, seq := seqPassInit, mid := false }
  | confirmReturn (hseq : s.seq = seqConfirm) (h : ¬ isEdge s inp.btn) :
      CycleTo inp s { s with btnCand := inp.btn, seq := Machine.pollReturn s, mid := false }
  | passInit (hseq : s.seq = seqPassInit) :
      CycleTo inp s { s with phase := 0, dir := false, sub := 0, fidx := 0, seq := seqFill }
  | fillHead (x : Pixel) (hseq : s.seq = seqFill) (hmode : s.mode = 7) :
      CycleTo inp s { s with fb := storePixel s.params.n (some s.headReg.toNat) x s.fb, seq := seqTxStart }
  | txStart (hseq : s.seq = seqTxStart) : CycleTo inp s { s with seq := seqTxWait }
  | txDoneOff (hseq : s.seq = seqTxWait) : CycleTo inp s { s with seq := seqPoll }
  | txDoneDelay (hseq : s.seq = seqTxWait) (r : Render) (d : Byte) (hd : frameDelay r s.params = some d) :
      CycleTo inp s { s with dly := d, seq := seqDelay }
  | stepBreathe (hseq : s.seq = seqStep) (q : BreatheNext) (hq : q = breatheStep s.params s.dir s.phase) :
      CycleTo inp s
        { s with
          dir := q.dir, phase := q.phase, mid := endMid q.done s.params s.mid, seq := endSeq q.done s.params }
  | stepChase (hseq : s.seq = seqStep) (q : ChaseNext) (hq : q = chaseStep s.params s.phase s.sub s.headReg) :
      CycleTo inp s
        { s with
          phase := q.phase, sub := q.sub, head := q.head
          mid := endMid q.done s.params s.mid, seq := endSeq q.done s.params }
  | passEnd (hseq : s.seq = seqStep ∨ 10 ≤ s.seq.toNat) : CycleTo inp s { s with mid := false, seq := seqPoll }

theorem sweepCycle_cycleTo {x : Pixel} {after : Code} {s : State}
    (hseq : s.seq = seqClear ∨ s.seq = seqFill ∧ s.mode ≠ 7) (hafter : after = seqPoll ∨ after = seqTxStart)
    (inp : Inputs) : CycleTo inp s (sweepCycle x after s) := by
  by_cases h : fillOver s
  · rw [sweepCycle_of_fillOver h]
    exact .sweepEnd x after hafter h
  · rw [sweepCycle_of_not_fillOver h]
    exact .sweepNext x hseq h

theorem opPoll_cycleTo {s : State} (hseq : s.seq = seqPoll) (inp : Inputs) : CycleTo inp s (opPoll inp s) := by
  by_cases h : isCandidate s inp.btn
  · rw [opPoll_of_isCandidate h]
    exact .pollCandidate hseq h
  · rw [opPoll_of_not_isCandidate h]
    exact .pollReturn hseq h

theorem opDebounce_cycleTo {s : State} (hseq : s.seq = seqDebounce) (inp : Inputs) :
    CycleTo inp s (opWait seqConfirm inp s) := by
  cases ht : inp.tick
  · rw [opWait_of_no_tick _ ht]
    exact .waiting (.inl hseq)
  · by_cases h : waitOver s
    · rw [opWait_of_waitOver ht h]
      exact .debounceEnd hseq h
    · rw [opWait_of_not_waitOver ht h]
      exact .waitTick (.inl hseq) h

theorem opDelay_cycleTo {s : State} (hseq : s.seq = seqDelay) (inp : Inputs) :
    CycleTo inp s (opWait seqStep inp s) := by
  cases ht : inp.tick
  · rw [opWait_of_no_tick _ ht]
    exact .waiting (.inr (.inl hseq))
  · by_cases h : waitOver s
    · rw [opWait_of_waitOver ht h]
      exact .delayEnd hseq h
    · rw [opWait_of_not_waitOver ht h]
      exact .waitTick (.inr hseq) h

theorem opConfirm_cycleTo {s : State} (hseq : s.seq = seqConfirm) (inp : Inputs) : CycleTo inp s (opConfirm inp s) := by
  by_cases h : isEdge s inp.btn
  · rw [opConfirm_of_isEdge h]
    exact .confirmEdge hseq h
  · rw [opConfirm_of_not_isEdge h]
    exact .confirmReturn hseq h

theorem opFill_cycleTo {s : State} (hseq : s.seq = seqFill) (inp : Inputs) :
    CycleTo inp s (opFill (renderOf s.mode) inp s) := by
  by_cases hm : s.mode = 7
  · rw [(renderOf_eq_chase_iff _).2 hm, opFill_chase_eq]
    exact .fillHead _ hseq hm
  · rw [opFill_eq_sweepCycle (mt (renderOf_eq_chase_iff _).1 hm)]
    exact sweepCycle_cycleTo (.inr ⟨hseq, hm⟩) (.inr rfl) inp

theorem opTxWait_cycleTo {s : State} (hseq : s.seq = seqTxWait) (r : Render) (inp : Inputs) :
    CycleTo inp s (opTxWait r inp s) := by
  cases h : inp.txDone
  · rw [opTxWait_of_no_done h]
    exact .waiting (.inr (.inr hseq))
  · cases hd : frameDelay r s.params with
    | none =>
      rw [opTxWait_of_delay_none h hd]
      exact .txDoneOff hseq
    | some d =>
      rw [opTxWait_of_delay_some h hd]
      exact .txDoneDelay hseq r d hd

theorem opStep_cycleTo {s : State} (hseq : s.seq = seqStep) (r : Render) (inp : Inputs) :
    CycleTo inp s (opStep r inp s) := by
  cases r <;> rw [opStep, endStep_eq]
  case breathe => exact .stepBreathe hseq _ rfl
  case chase => exact .stepChase hseq _ rfl
  case off => exact .passEnd (.inl hseq)

/-- Every cycle without reset has one of the outcomes. -/
theorem writesOf_cycleTo (inp : Inputs) (s : State) : CycleTo inp s (writesOf (decodeSeq s.seq) s.mode inp s) := by
  rw [writesOf_decodeSeq]
  rcases seqStateOf_cases s.seq with ⟨hc, hq⟩ | ⟨hc, hq⟩ | ⟨hc, hq⟩ | ⟨hc, hq⟩ | ⟨hc, hq⟩ | ⟨hc, hq⟩ | ⟨hc, hq⟩ |
    ⟨hc, hq⟩ | ⟨hc, hq⟩ | ⟨hc, hq⟩ | ⟨hc, hq⟩ <;> rw [hq]
  · exact sweepCycle_cycleTo (.inl hc) (.inl rfl) inp
  · exact opPoll_cycleTo hc inp
  · exact opDebounce_cycleTo hc inp
  · exact opConfirm_cycleTo hc inp
  · exact .passInit hc
  · exact opFill_cycleTo hc inp
  · exact .txStart hc
  · exact opTxWait_cycleTo hc _ inp
  · exact opDelay_cycleTo hc inp
  · exact opStep_cycleTo hc _ inp
  · exact .passEnd (.inr hc)

/-- An invariant of the step, from its two kinds of cycle: reset, and the outcomes of a cycle without reset. -/
theorem step_induction {P : State → Prop} {s t : State} (h : step s = .next t)
    (hreset : s.params.legal = true → P (resetRegisters (passCycle s)))
    (hcycle : s.params.legal = true → CycleTo (inputsNow s) (passCycle s) t → P t) : P t := by
  obtain ⟨hp, ⟨-, rfl⟩ | ⟨-, rfl⟩⟩ := step_cases h
  · exact hreset hp
  · exact hcycle hp (writesOf_cycleTo _ (passCycle s))

/-- A sweep that is not over stays on the strip. -/
theorem sweepNext_lt {s : State} (hn : s.params.n ≤ 65535) (h : ¬ fillOver s) :
    (BitVec.ofNat 16 (s.fidxReg.toNat + 1)).toNat < s.params.n := by
  rw [index_toNat_ofNat (by omega)]; omega

/-! The index registers' widths. -/

theorem CycleTo.widthsOk {inp : Inputs} {s t : State} (h : CycleTo inp s t) (hp : s.params.legal = true)
    (hs : s.widthsOk) : t.widthsOk := by
  obtain ⟨hn, -⟩ := (Params.legal_iff _).1 hp
  obtain ⟨hhead, hfidx⟩ := hs
  have hwidth := le_two_pow_idxW s.params
  have hzero : (0 : Index).toNat < 2 ^ s.params.idxW := Nat.two_pow_pos _
  cases h
  case sweepNext hover => exact ⟨hhead, (sweepNext_lt hn.2 hover).trans_le hwidth⟩
  case sweepEnd => exact ⟨hhead, hzero⟩
  case confirmEdge => exact ⟨hzero, hfidx⟩
  case passInit => exact ⟨hhead, hzero⟩
  case stepChase q hq =>
    refine ⟨?_, hfidx⟩
    rw [hq, chaseStep_head]
    exact (nextHead_lt hn _).trans_le hwidth
  all_goals exact ⟨hhead, hfidx⟩

/-- Settles O45: what the outcomes write to `head` and `fidx` is 0 or an index of the strip. -/
theorem indexWidthsAreKept : Obligations.IndexWidthsAreKept := fun _ _ hs h =>
  step_induction h (fun _ => ⟨Nat.two_pow_pos _, Nat.two_pow_pos _⟩) fun hp hc => hc.widthsOk hp hs

/-! The fill index outside the fills. -/

theorem CycleTo.fillIndexIdle {inp : Inputs} {s t : State} (h : CycleTo inp s t) (hs : s.fillIndexIdle) :
    t.fillIndexIdle := by
  have hidle : ∀ {c}, s.seq = c → c ≠ seqClear ∧ c ≠ seqFill → s.fidx = 0 := fun hc ⟨h0, h5⟩ =>
    hs (hc ▸ h0) (.inl (hc ▸ h5))
  cases h
  case sweepNext hseq hover =>
    obtain hseq | ⟨hseq, hmode⟩ := hseq
    · exact fun h0 => absurd hseq h0
    · exact fun _ h5 => absurd hseq (h5.resolve_right hmode)
  case sweepEnd | passInit => exact fun _ _ => rfl
  case fillHead hseq hmode => exact fun _ _ => hs (by rw [hseq]; decide) (.inr hmode)
  case waiting | waitTick => exact hs
  case passEnd hseq =>
    obtain hseq | hseq := hseq
    · exact fun _ _ => hidle hseq (by decide)
    · exact fun _ _ => hidle rfl ⟨fun h => by simp [h] at hseq, fun h => by simp [h] at hseq⟩
  case pollCandidate hseq _ | pollReturn hseq _ | debounceEnd hseq _ | delayEnd hseq _ | confirmEdge hseq _ |
      confirmReturn hseq _ | txStart hseq | txDoneOff hseq | txDoneDelay hseq _ _ _ | stepBreathe hseq _ _ |
      stepChase hseq _ _ =>
    exact fun _ _ => hidle hseq (by decide)

/-- Settles O46: a sweep clears `fidx` at its end, and no other outcome but `PASS_INIT`'s writes it. -/
theorem fillIndexIsIdleOutsideFills : Obligations.FillIndexIsIdleOutsideFills := fun _ _ hs h =>
  step_induction h (fun _ _ _ => rfl) fun _ hc => hc.fillIndexIdle hs

/-! The button samples. -/

theorem endSeq_cases (done : Bool) (p : Params) : endSeq done p = seqPoll ∨ endSeq done p = seqFill := by
  unfold endSeq; split <;> simp

/-- In a state that neither debounces nor confirms, no candidate is pending. -/
theorem candidatePending_of_seq {s : State} {c : Code} (h : s.seq = c)
    (hc : (c == seqDebounce || c == seqConfirm) = false) : s.candidatePending := fun hs => by
  rw [h] at hs
  rcases hs with rfl | rfl <;> cases hc

theorem CycleTo.candidatePending {inp : Inputs} {s t : State} (h : CycleTo inp s t) (hs : s.candidatePending) :
    t.candidatePending := by
  cases h
  case pollCandidate hcand => exact fun _ => hcand
  case debounceEnd hseq _ => exact fun _ => hs (.inl hseq)
  case waiting | waitTick => exact hs
  case sweepNext hseq _ =>
    obtain hseq | ⟨hseq, -⟩ := hseq <;> exact candidatePending_of_seq hseq rfl
  case sweepEnd hafter _ =>
    obtain rfl | rfl := hafter <;> exact candidatePending_of_seq rfl rfl
  case pollReturn | confirmReturn =>
    obtain hret | ⟨hret, -⟩ := pollReturn_cases s <;> exact candidatePending_of_seq hret rfl
  case stepBreathe q _ =>
    obtain hend | hend := endSeq_cases q.done s.params <;> exact candidatePending_of_seq hend rfl
  case stepChase q _ =>
    obtain hend | hend := endSeq_cases q.done s.params <;> exact candidatePending_of_seq hend rfl
  all_goals exact candidatePending_of_seq rfl rfl

/-- Settles O47: a candidate's poll alone leads into a debounce, and both samples stay as they are until `CONFIRM`. -/
theorem candidateStaysACandidate : Obligations.CandidateStaysACandidate := fun _ _ hs h =>
  step_induction h (fun _ => candidatePending_of_seq rfl rfl) fun _ hc => hc.candidatePending hs

/-- Settles O35: of all outcomes, only an edge and a poll that releases write the accepted sample. -/
theorem acceptedSampleChangesOnlyOnAnEdge : Obligations.AcceptedSampleChangesOnlyOnAnEdge := by
  intro s t h hr hne
  obtain ⟨-, ⟨hr', -⟩ | ⟨-, ht⟩⟩ := step_cases h
  · simp [hr] at hr'
  have hc := writesOf_cycleTo (inputsNow s) (passCycle s)
  rw [show writesOf (decodeSeq (passCycle s).seq) (passCycle s).mode (inputsNow s) (passCycle s) = t from ht.symm] at hc
  cases hc
  case confirmEdge hseq hedge => exact .inl ⟨hseq, hedge.1, rfl, rfl⟩
  case pollReturn hseq _ =>
    by_cases hrel : releasesAccepted s (inputsNow s).btn
    · exact .inr ⟨hseq, hrel.1, hrel.2, if_pos hrel⟩
    · exact absurd (if_neg hrel) hne
  all_goals exact absurd rfl hne

/-! The register ranges. -/

theorem nextMode_toNat_le : ∀ m : Code, m.toNat ≤ 7 → (nextMode m).toNat ≤ 7 := by
  decide

/-- A breathe step keeps the phase in its range (R169). -/
theorem breatheStep_phase_le {p : Params} (dir : Bool) {phase : Byte} (h : phase.toNat ≤ p.maxB) :
    (breatheStep p dir phase).phase.toNat ≤ p.maxB := by
  unfold breatheStep
  split_ifs
  case pos => exact toNat_ofNat_le_of_le (Nat.sub_le ..)
  case neg => exact toNat_ofNat_le_of_le (by omega)
  case pos => exact Nat.zero_le _
  case neg => exact toNat_ofNat_le_of_le (by omega)

/-- A chase step keeps the phase and the sub-phase in their ranges (R172). -/
theorem chaseStep_phase_sub_le {p : Params} {phase : Byte} (h : phase.toNat ≤ p.maxB) {sub : BitVec 3}
    (hs : sub.toNat ≤ 5) (head : Index) :
    (chaseStep p phase sub head).phase.toNat ≤ p.maxB ∧ (chaseStep p phase sub head).sub.toNat ≤ 5 := by
  by_cases hlast : phase.toNat < p.maxB - 1
  · rw [chaseStep_within hlast]
    exact ⟨toNat_ofNat_le_of_le (by omega), hs⟩
  · by_cases h5 : sub.toNat < 5
    · rw [chaseStep_nextSub (by omega) h5]
      exact ⟨Nat.zero_le _, toNat_ofNat_le_of_le h5⟩
    · rw [chaseStep_done (by omega) (by omega)]
      exact ⟨Nat.zero_le _, Nat.zero_le _⟩

theorem endSeq_toNat_le (done : Bool) (p : Params) : (endSeq done p).toNat ≤ 9 := by
  obtain h | h := endSeq_cases done p <;> rw [h] <;> decide

theorem pollReturn_toNat_le (s : State) : (pollReturn s).toNat ≤ 9 := by
  obtain h | ⟨h, -⟩ := pollReturn_cases s <;> rw [h] <;> decide

/-- In the primary variant `mid` stays 0 (R31). -/
theorem endMid_eq_false {p : Params} (hp : p.pollEachFrame = false) {mid : Bool} (h : mid = false) (done : Bool) :
    endMid done p mid = false := by
  simp [endMid, hp, h]

/-- A delay is within the greatest count `dly` is loaded with (R41, R178). -/
theorem frameDelay_le {p : Params} {r : Render} {d : Byte} (h : frameDelay r p = some d) : d.toNat ≤ maxWait p := by
  cases r <;> cases h <;> exact toNat_ofNat_le_of_le (by simp [maxWait])

theorem CycleTo.registersInRange {inp : Inputs} {s t : State} (h : CycleTo inp s t) (hp : s.params.legal = true)
    (hs : s.RegistersInRange) : t.RegistersInRange := by
  obtain ⟨hn, -⟩ := (Params.legal_iff _).1 hp
  cases h
  case sweepNext hover => exact { hs with fidx := sweepNext_lt hn.2 hover }
  case sweepEnd hafter _ =>
    obtain rfl | rfl := hafter <;> exact { hs with fidx := hn.1, seq := Nat.le_of_ble_eq_true rfl }
  case pollCandidate =>
    exact { hs with seq := Nat.le_of_ble_eq_true rfl, dly := toNat_ofNat_le_of_le (le_max_left _ _) }
  case pollReturn | confirmReturn => exact { hs with seq := pollReturn_toNat_le s, mid := fun _ => rfl }
  case waiting => exact hs
  case waitTick =>
    exact { hs with dly := toNat_ofNat_le_of_le ((Nat.sub_le ..).trans hs.dly) }
  case debounceEnd | delayEnd => exact { hs with seq := Nat.le_of_ble_eq_true rfl, dly := Nat.zero_le _ }
  case confirmEdge =>
    exact { hs with
      seq := Nat.le_of_ble_eq_true rfl, mode := nextMode_toNat_le _ hs.mode, head := hn.1, mid := fun _ => rfl }
  case passInit =>
    exact { hs with
      seq := Nat.le_of_ble_eq_true rfl, phase := Nat.zero_le _, sub := Nat.zero_le _, fidx := hn.1 }
  case fillHead | txStart | txDoneOff => exact { hs with seq := Nat.le_of_ble_eq_true rfl }
  case txDoneDelay hd => exact { hs with seq := Nat.le_of_ble_eq_true rfl, dly := frameDelay_le hd }
  case stepBreathe q hq =>
    exact { hs with
      seq := endSeq_toNat_le .., mid := fun hpoll => endMid_eq_false hpoll (hs.mid hpoll) _
      phase := hq ▸ breatheStep_phase_le _ hs.phase }
  case stepChase q hq =>
    obtain ⟨hphase, hsub⟩ := chaseStep_phase_sub_le hs.phase hs.sub s.headReg
    exact { hs with
      seq := endSeq_toNat_le .., mid := fun hpoll => endMid_eq_false hpoll (hs.mid hpoll) _
      phase := hq ▸ hphase, sub := hq ▸ hsub
      head := by rw [hq, chaseStep_head]; exact nextHead_lt hn _ }
  case passEnd => exact { hs with seq := Nat.le_of_ble_eq_true rfl, mid := fun _ => rfl }

/-- Settles O42: the ranges hold after reset, and every outcome of a cycle keeps them. -/
theorem registerRangesAreKept : Obligations.RegisterRangesAreKept := fun _ _ hs h =>
  step_induction h (fun hp => { resetOf_registersInRange ((Params.legal_iff _).1 hp).1.1 with })
    fun hp hc => hc.registersInRange hp { hs with }

end Sys2Proof.Machine
end

section
/-! Runs of several cycles without reset: transmissions, waits and sweeps of the strip (spec/20_memory.md R72,
spec/40_button_sampler.md R122, spec/43_frame_writer_and_pass_control.md R201, R203, R208). -/

namespace Sys2Proof.Machine

theorem noReset_iff (s : State) (k : Nat) : noReset s k = true ↔ ∀ j < k, (inputsAt s j).rst = false := by
  simp [noReset]

/-- A run one cycle longer ends with one more step. -/
theorem runCycles_succ_last {k : Nat} {s t : State} (h : runCycles k s = .next t) : runCycles (k + 1) s = step t := by
  induction k generalizing s with
  | zero =>
    cases h
    rw [runCycles]
    cases step t <;> rfl
  | succ k ih =>
    rw [runCycles] at h
    split at h
    case h_1 u hu => exact (runCycles_succ hu (k + 1)).trans (ih h)
    all_goals cases h

/-- Induction over a run: a property that each step leads from one cycle to the next holds after `k` cycles. The step in
cycle `j` sees the inputs of that cycle. -/
theorem run_induction {P : Nat → State → Prop} {k : Nat} {s : State} (h0 : P 0 s)
    (hstep : ∀ j t, j < k → inputsNow t = inputsAt s j → P j t → ∃ u, step t = .next u ∧ P (j + 1) u) :
    ∃ t, runCycles k s = .next t ∧ inputsNow t = inputsAt s k ∧ P k t := by
  induction k generalizing s P with
  | zero => exact ⟨s, rfl, rfl, h0⟩
  | succ k ih =>
    obtain ⟨u, hu, hP⟩ := hstep 0 s (by omega) rfl h0
    obtain ⟨t, hrun, hin, ht⟩ := ih (P := fun j => P (j + 1)) hP fun j t hj hin hP =>
      hstep (j + 1) t (by omega) (hin.trans (inputsAt_after_step hu j)) hP
    exact ⟨t, (runCycles_succ hu k).trans hrun, hin.trans (inputsAt_after_step hu k), ht⟩

/-- A legal step without reset, by the code in `seq`. -/
theorem step_eq_seqOp {s : State} (h : s.params.legal = true) (hr : (inputsNow s).rst = false) {c : Code} (hc : s.seq = c) :
    step s = .next (seqOp (renderOf s.mode) (seqStateOf c) (inputsNow s) (passCycle s)) := by
  rw [step_of_legal h hr, writesOf_decodeSeq, hc]

/-! The transmission of a frame. -/

/-- Settles O26: no cycle but those of `CLEAR` and `FILL` stores, and `TX_WAIT` waits for `tx_done`. -/
theorem frameStableUntilDone : Obligations.FrameStableUntilDone := by
  refine ⟨fun s t h h0 h5 => ?_, fun s k hp hseq hr hd => ?_⟩
  · obtain ⟨-, ⟨-, rfl⟩ | ⟨-, rfl⟩⟩ := step_cases h
    · rfl
    · rw [writesOf_decodeSeq, ← passCycle_seq, ← opRender_eq_seqOp]
      exact opRender_fb_of_not_fill _ _ h0 h5
  · rw [noReset_succ] at hr
    have hfirst : step s = .next { passCycle s with seq := seqTxWait } := step_eq_seqOp hp hr.1 hseq
    obtain ⟨t, hrun, -, -, hseq', hfb, hmode⟩ := run_induction (k := k) (s := { passCycle s with seq := seqTxWait })
      (P := fun _ t => t.params = s.params ∧ t.seq = 0x7 ∧ t.fb = s.fb ∧ t.mode = s.mode) ⟨rfl, rfl, rfl, rfl⟩
      fun j t hj hin ⟨hpt, hseqt, hfbt, hmodet⟩ => by
        rw [inputsAt_after_step hfirst] at hin
        refine ⟨passCycle t, ?_, hpt, hseqt, hfbt, hmodet⟩
        rw [step_eq_seqOp (hpt ▸ hp) (hin ▸ hr.2 j hj) hseqt]
        exact congrArg _ (opTxWait_of_no_done (hin ▸ hd j hj) _ _)
    exact ⟨t, (runCycles_succ hfirst k).trans hrun, hseq', hfb, hmode⟩

/-! The waits for ticks. -/

theorem ticksIn_succ (s : State) (k : Nat) :
    ticksIn s (k + 1) = ticksIn s k + if (inputsAt s k).tick = true then 1 else 0 := by
  simp [ticksIn, List.range_succ, List.countP_append, List.countP_singleton]

theorem ticksIn_mono (s : State) {j k : Nat} (h : j ≤ k) : ticksIn s j ≤ ticksIn s k := by
  induction h with
  | refl => exact le_rfl
  | step _ ih => exact ih.trans (by rw [ticksIn_succ]; omega)

/-- A cycle of either wait (R122, R208). -/
theorem step_wait {s : State} (hp : s.params.legal = true) (hr : (inputsNow s).rst = false)
    (hc : s.seq = 0x2 ∨ s.seq = 0x8) :
    step s = .next (opWait (if s.seq = 0x2 then 0x3 else 0x9) (inputsNow s) (passCycle s)) := by
  obtain hc | hc := hc <;> rw [step_eq_seqOp hp hr hc, hc] <;> rfl

/-- `t` is `k` cycles into the wait that `s` begins, whose ticks `dly` has counted down. -/
structure WaitAt (s : State) (k : Nat) (t : State) : Prop where
  params : t.params = s.params
  seq : t.seq = s.seq
  dly : t.dly.toNat = s.dly.toNat - ticksIn s k

/-- The wait goes on while its last tick has not come. -/
theorem WaitAt.step {s t : State} {k : Nat} (h : WaitAt s k t) (hp : s.params.legal = true)
    (hc : s.seq = 0x2 ∨ s.seq = 0x8) (hin : inputsNow t = inputsAt s k) (hr : (inputsAt s k).rst = false)
    (hticks : ticksIn s (k + 1) < max 1 s.dly.toNat) : ∃ u, Machine.step t = .next u ∧ WaitAt s (k + 1) u := by
  obtain ⟨hpt, hseqt, hdly⟩ := h
  refine ⟨_, step_wait (hpt ▸ hp) (hin ▸ hr) (hseqt ▸ hc), ?_⟩
  rw [ticksIn_succ] at hticks
  rw [hin]
  cases ht : (inputsAt s k).tick
  · rw [opWait_of_no_tick _ ht]
    exact ⟨hpt, hseqt, by simp [ticksIn_succ, ht, hdly]⟩
  · rw [if_pos ht] at hticks
    have hgo : ¬ waitOver (passCycle t) := by
      show ¬ t.dly.toNat ≤ 1
      omega
    rw [opWait_of_not_waitOver ht hgo]
    refine ⟨hpt, hseqt, ?_⟩
    rw [ticksIn_succ, if_pos ht, byte_toNat_ofNat (by omega)]
    show t.dly.toNat - 1 = _
    omega

/-- While fewer ticks have come than the wait counts, it lasts. -/
theorem exists_waitAt {s : State} {k : Nat} (hp : s.params.legal = true) (hc : s.seq = 0x2 ∨ s.seq = 0x8)
    (hr : ∀ j < k, (inputsAt s j).rst = false) (hticks : ticksIn s k < max 1 s.dly.toNat) :
    ∃ t, runCycles k s = .next t ∧ inputsNow t = inputsAt s k ∧ WaitAt s k t :=
  run_induction ⟨rfl, rfl, rfl⟩ fun j _ hj hin h =>
    h.step hp hc hin (hr j hj) ((ticksIn_mono s hj).trans_lt hticks)

/-- Settles O41: the wait lasts by `exists_waitAt`, and its last tick finds `dly` at most 1. -/
theorem waitsEndAtTheirLastTick : Obligations.WaitsEndAtTheirLastTick := by
  intro s k hp hc
  refine ⟨fun hr hticks => ?_, fun hr hticks htick => ?_⟩
  · obtain ⟨t, hrun, -, h⟩ := exists_waitAt hp hc ((noReset_iff s k).1 hr) hticks
    exact ⟨t, hrun, h.seq, h.dly⟩
  · have hr' := (noReset_iff s (k + 1)).1 hr
    obtain ⟨t, hrun, hin, hpt, hseqt, hdly⟩ := exists_waitAt (k := k) hp hc (fun j hj => hr' j (by omega)) (by omega)
    have hover : waitOver (passCycle t) := by
      show t.dly.toNat ≤ 1
      omega
    have hlast := step_wait (hpt ▸ hp) (hin ▸ hr' k (by omega)) (hseqt ▸ hc)
    rw [opWait_of_waitOver (hin ▸ htick) hover, hseqt] at hlast
    exact ⟨_, (runCycles_succ_last hrun).trans hlast, rfl, rfl⟩

/-! The sweeps of the strip. -/

/-- `t` is `k` cycles into the sweep that `s` begins: the pixels below `k` hold `x`, and only `fidx`, the frame buffer and the
read port have changed. -/
structure SweepAt (x : Pixel) (s : State) (k : Nat) (t : State) : Prop where
  params : t.params = s.params
  mode : t.mode = s.mode
  dir : t.dir = s.dir
  phase : t.phase = s.phase
  sub : t.sub = s.sub
  head : t.head = s.head
  seq : t.seq = s.seq
  fidx : t.fidx.toNat = k
  pixels : ∀ i < k, memPixel t.fb i = x

/-- A store at `k` extends a run of equal pixels by one. -/
theorem memPixel_storePixel_of_lt {x : Pixel} {m : Memory} {n k : Nat} (hk : k < n) (h : ∀ i < k, memPixel m i = x) :
    ∀ i < k + 1, memPixel (storePixel n (some k) x m) i = x := by
  intro i hi
  rw [storePixel_of_lt hk]
  obtain hi | rfl := Nat.lt_succ_iff_lt_or_eq.1 hi
  · rw [memPixel_memWritePixel_other _ _ (by omega), h i hi]
  · exact memPixel_memWritePixel_same ..

theorem SweepAt.fidxReg {x : Pixel} {s t : State} {k : Nat} (h : SweepAt x s k t) (hk : k < s.params.n) :
    t.fidxReg.toNat = k := by
  rw [State.fidxReg, fitIndex_of_lt_n (by rw [h.fidx, h.params]; exact hk), h.fidx]

/-- A sweep cycle before the last leads to the next. -/
theorem SweepAt.next {x : Pixel} {s t : State} {k : Nat} (h : SweepAt x s k t) (hn : s.params.n ≤ 65535)
    (hk : k + 1 < s.params.n) (after : Code) : SweepAt x s (k + 1) (sweepCycle x after (passCycle t)) := by
  have hreg := h.fidxReg (by omega)
  have hgo : ¬ fillOver (passCycle t) := by
    show ¬ t.fidxReg.toNat ≥ t.params.n - 1
    rw [hreg, h.params]; omega
  rw [sweepCycle_of_not_fillOver hgo, passCycle_fidxReg, hreg]
  exact { h with
    fidx := index_toNat_ofNat (by omega)
    pixels := memPixel_storePixel_of_lt (by rw [passCycle_params, h.params]; omega) h.pixels }

/-- `u` ends the sweep that `s` begins: all pixels hold `x`, and the state `after` follows. -/
structure SweepDone (x : Pixel) (after : Code) (s u : State) : Prop where
  mode : u.mode = s.mode
  dir : u.dir = s.dir
  phase : u.phase = s.phase
  sub : u.sub = s.sub
  head : u.head = s.head
  seq : u.seq = after
  fidx : u.fidx = 0
  snapshot : snapshot u = List.replicate s.params.n x

theorem snapshot_eq_replicate {s : State} {x : Pixel} (h : ∀ i < s.params.n, memPixel s.fb i = x) :
    snapshot s = List.replicate s.params.n x :=
  List.eq_replicate_iff.2 ⟨by simp [snapshot], fun y hy => by
    obtain ⟨i, hi, rfl⟩ := List.mem_map.1 hy
    exact h i (List.mem_range.1 hi)⟩

/-- The sweep cycle at the last pixel ends it. -/
theorem SweepAt.last {x : Pixel} {s t : State} {k : Nat} (h : SweepAt x s k t) (hk : k + 1 = s.params.n) (after : Code) :
    SweepDone x after s (sweepCycle x after (passCycle t)) := by
  have hreg := h.fidxReg (by omega)
  have hover : fillOver (passCycle t) := by
    show t.fidxReg.toNat ≥ t.params.n - 1
    rw [hreg, h.params]; omega
  rw [sweepCycle_of_fillOver hover, passCycle_fidxReg, hreg]
  refine { h with seq := rfl, fidx := rfl, snapshot := ?_ }
  rw [← h.params]
  exact snapshot_eq_replicate fun i hi =>
    memPixel_storePixel_of_lt (by rw [passCycle_params, h.params]; omega) h.pixels i
      (by rw [hk, ← h.params]; exact hi)

/-- A run whose cycles sweep the strip: from `fidx = 0` it takes `N` cycles (R201, R203). -/
theorem sweep_run {x : Pixel} {after : Code} {s : State} (hp : s.params.legal = true) (hfidx : s.fidx = 0)
    (hr : noReset s s.params.n = true)
    (hcycle : ∀ k t, SweepAt x s k t → (inputsNow t).rst = false →
      step t = .next (sweepCycle x after (passCycle t))) :
    (∀ k < s.params.n, ∃ t, runCycles k s = .next t ∧ SweepAt x s k t) ∧
      ∃ u, runCycles s.params.n s = .next u ∧ SweepDone x after s u := by
  obtain ⟨hn1, hn⟩ := ((Params.legal_iff _).1 hp).1
  have hr' := (noReset_iff s _).1 hr
  have h0 : SweepAt x s 0 s := ⟨rfl, rfl, rfl, rfl, rfl, rfl, rfl, by rw [hfidx]; rfl, fun i hi => absurd hi (by omega)⟩
  have hrun : ∀ k < s.params.n, ∃ t, runCycles k s = .next t ∧ inputsNow t = inputsAt s k ∧ SweepAt x s k t :=
    fun k hk => run_induction h0 fun j t hj hin h =>
      ⟨_, hcycle j t h (hin ▸ hr' j (by omega)), h.next hn (by omega) after⟩
  refine ⟨fun k hk => (hrun k hk).imp fun t ⟨ht, _, h⟩ => ⟨ht, h⟩, ?_⟩
  obtain ⟨k, hk⟩ : ∃ k, k + 1 = s.params.n := ⟨s.params.n - 1, by omega⟩
  obtain ⟨t, ht, hin, h⟩ := hrun k (by omega)
  refine ⟨_, ?_, h.last hk after⟩
  rw [← hk, runCycles_succ_last ht]
  exact hcycle k t h (hin ▸ hr' k (by omega))

/-- Settles O39: the boot clear is a sweep with dark pixels. -/
theorem bootClearTakesNCycles : Obligations.BootClearTakesNCycles := by
  intro s hp hseq hfidx hr
  obtain ⟨hwithin, u, hu, hdone⟩ := sweep_run (x := Pixel.black) (after := seqPoll) hp hfidx hr fun k t h hrt =>
    step_eq_seqOp (h.params ▸ hp) hrt (h.seq.trans hseq)
  refine ⟨fun k hk => ?_, u, hu, hdone.seq, hdone.fidx, hdone.snapshot⟩
  obtain ⟨t, ht, h⟩ := hwithin k hk
  have hclear : t.seq = 0x0 := h.seq.trans hseq
  exact ⟨t, ht, hclear, txStartOut_eq_false_of_seq_ne (by rw [hclear]; decide)⟩

/-- Settles O40: a full-strip fill is a sweep with the frame's colour, which no sweep cycle changes. -/
theorem fullStripFillTakesNCycles : Obligations.FullStripFillTakesNCycles := by
  intro s hp hseq hmode hfidx hr
  obtain ⟨-, u, hu, hdone⟩ := sweep_run (x := framePixel (renderOf s.mode) s.params s.phase s.sub) (after := seqTxStart)
    hp hfidx hr fun k t h hrt => by
      rw [step_eq_seqOp (h.params ▸ hp) hrt (h.seq.trans hseq), h.mode, ← h.params, ← h.phase, ← h.sub]
      exact congrArg _ (opFill_eq_sweepCycle (mt (renderOf_eq_chase_iff _).1 hmode) (inputsNow t) (passCycle t))
  exact ⟨u, hu, hdone.seq, hdone.fidx, hdone.mode, hdone.dir, hdone.phase, hdone.sub, hdone.head, hdone.snapshot⟩

end Sys2Proof.Machine
end
